-- ==== Sys2Proof/Word.lean ====
section
/-! DEFINITION. The bit patterns of the request and response fields and of a `Pow2` entry
(00_scope.md R7; 10_state.md R21, R24, R25). Everything the spec computes with is an `Int`
(00_scope.md R9); a bit vector stands only where the spec has a bus, a byte or a table entry. -/

namespace Sys2Proof

/-- A pattern on the operand buses A and B or on the result bus R: BUS_W = 64 bits (R7). -/
abbrev Bus := BitVec 64

/-- A command byte: CMD_W = 8 bits (R7, 30_encoding.md R51). -/
abbrev CmdByte := BitVec 8

/-- The STATUS field of a response: STATUS_W = 2 bits (R7). -/
abbrev Status := BitVec 2

/-- One entry of the power-of-two table: an unsigned 32-bit value (R21). -/
abbrev Entry := BitVec 32

/-- The table `Pow2[0..31]`: POW2_N = 32 entries (R6, R21). -/
abbrev PowTable := Vector Entry 32

/-- A whole request as one number: CMD in bits 7..0, A in bits 71..8, B in bits 135..72
(the model's own layout of the format CMD8+A64+B64: log entry 7). -/
abbrev RequestImage := BitVec (64 + (64 + 8))

end Sys2Proof
end

