-- ==== Sys2Proof/Config.lean ====
section
/-! DEFINITION. The engine's fixed parameters (00_scope.md R6, R7). The spec leaves none of them open ("a model takes
none of these as an argument") and leaves no result of an instruction open, so this file holds
numbers only and no free value. The widths of R7 and the table size are in the types of Word.lean. -/

namespace Sys2Proof.Config

/-- MOD = 2^32 (R6). -/
abbrev modulus : Int := 4294967296

/-- MODM = 2^32 - 1 (R6). -/
abbrev modulusMinusOne : Int := 4294967295

/-- 2^31, the bound at which a 32-bit pattern is read as negative (40_primitives.md R73). -/
abbrev signBound : Int := 2147483648

/-- 2^64, the number of patterns of a bus (R7, 30_encoding.md R62). -/
abbrev busModulus : Int := 18446744073709551616

/-- The one shift amount whose magnitude is no signed 32-bit value: -2^31 (44_shift.md R165). -/
abbrev minAmount : Int := -2147483648

end Sys2Proof.Config
end

