-- ==== Sys2Proof/Syntax.lean ====
section
/-! DEFINITION. The instructions of BWZ: one constructor of `Instr` per row of spec/opcode_table.json
(30_encoding.md R64), the six operations, the nine widths, and the raw request they are read from. -/

namespace Sys2Proof

/-- The nine operand widths (00_scope.md R8). -/
inductive Width where
  | i8 | u8 | i16 | u16 | i32 | u32 | i64 | u64 | c16
deriving DecidableEq, Repr

/-- The six operations (30_encoding.md R52). -/
inductive Operation where
  | band | bor | bxor | bnot | bshl | bshr
deriving DecidableEq, Repr

/-- A request as the requester presents it: the command byte and the two operand patterns
(10_state.md R24). Any 136 bits are a request; whether CMD selects an instruction is the decoder's
question. -/
structure Request where
  cmd : CmdByte
  a : Bus
  b : Bus
deriving DecidableEq, Repr

/-- An instruction with its operand patterns: one constructor per (operation, width) pair of R64.
NOT has the one operand A; the B of its request is ignored (R57, log entry 9). -/
inductive Instr where
  | bandI8 (a b : Bus)
  | bandU8 (a b : Bus)
  | bandI16 (a b : Bus)
  | bandU16 (a b : Bus)
  | bandI32 (a b : Bus)
  | bandU32 (a b : Bus)
  | bandI64 (a b : Bus)
  | bandU64 (a b : Bus)
  | bandC16 (a b : Bus)
  | borI8 (a b : Bus)
  | borU8 (a b : Bus)
  | borI16 (a b : Bus)
  | borU16 (a b : Bus)
  | borI32 (a b : Bus)
  | borU32 (a b : Bus)
  | borI64 (a b : Bus)
  | borU64 (a b : Bus)
  | borC16 (a b : Bus)
  | bxorI8 (a b : Bus)
  | bxorU8 (a b : Bus)
  | bxorI16 (a b : Bus)
  | bxorU16 (a b : Bus)
  | bxorI32 (a b : Bus)
  | bxorU32 (a b : Bus)
  | bxorI64 (a b : Bus)
  | bxorU64 (a b : Bus)
  | bxorC16 (a b : Bus)
  | bnotI8 (a : Bus)
  | bnotU8 (a : Bus)
  | bnotI16 (a : Bus)
  | bnotU16 (a : Bus)
  | bnotI32 (a : Bus)
  | bnotU32 (a : Bus)
  | bnotI64 (a : Bus)
  | bnotU64 (a : Bus)
  | bnotC16 (a : Bus)
  | bshlI8 (a b : Bus)
  | bshlU8 (a b : Bus)
  | bshlI16 (a b : Bus)
  | bshlU16 (a b : Bus)
  | bshlI32 (a b : Bus)
  | bshlU32 (a b : Bus)
  | bshlI64 (a b : Bus)
  | bshlU64 (a b : Bus)
  | bshlC16 (a b : Bus)
  | bshrI8 (a b : Bus)
  | bshrU8 (a b : Bus)
  | bshrI16 (a b : Bus)
  | bshrU16 (a b : Bus)
  | bshrI32 (a b : Bus)
  | bshrU32 (a b : Bus)
  | bshrI64 (a b : Bus)
  | bshrU64 (a b : Bus)
  | bshrC16 (a b : Bus)
deriving DecidableEq, Repr

end Sys2Proof
end

