-- ==== Sys2Proof/Machine/Primitives.lean ====
section
/-! DEFINITION. The modular-arithmetic core (40_primitives.md R70 to R76) and the notation it is written in
(00_scope.md R8, R10, R13). Every function is exact integer arithmetic, written as the spec's
pseudocode is. -/

namespace Sys2Proof

/-- N(W), the bit count of a width (R8, R13). -/
def Width.bits : Width → Nat
  | .i8 | .u8 => 8
  | .i16 | .u16 | .c16 => 16
  | .i32 | .u32 => 32
  | .i64 | .u64 => 64

/-- signed(W) (R8, R13). -/
def Width.signed : Width → Bool
  | .i8 | .i16 | .i32 | .i64 => true
  | .u8 | .u16 | .u32 | .u64 | .c16 => false

/-- min(W), the least value of a width (R8, R13). -/
def Width.minValue (w : Width) : Int :=
  if w.signed then -((2 ^ (w.bits - 1) : Nat) : Int) else 0

/-- max(W), the greatest value of a width (R8, R13). -/
def Width.maxValue (w : Width) : Int :=
  if w.signed then ((2 ^ (w.bits - 1) : Nat) : Int) - 1 else ((2 ^ w.bits : Nat) : Int) - 1

namespace Machine

/-- `floor(a / d)`, the greatest integer not above the exact quotient (R70, R72). The spec applies
`floor` to quotients only, so the quotient's two parts are the arguments. -/
def fdiv (a d : Int) : Int := Int.fdiv a d

/-- True modulo: `dividend - divisor * floor(dividend / divisor)` (R71). -/
def mod (dividend divisor : Int) : Int := dividend - divisor * fdiv dividend divisor

/-- `v[hi:lo]`, a bit pattern of width hi - lo + 1 (R10). -/
def slice (v : Int) (hi lo : Nat) : Int :=
  mod (fdiv v ((2 ^ lo : Nat) : Int)) ((2 ^ (hi - lo + 1) : Nat) : Int)

/-- `sext_n(p)`: a pattern of width n read as signed (R75). -/
def sext (n : Nat) (p : Int) : Int :=
  if ((2 ^ (n - 1) : Nat) : Int) ≤ p then p - ((2 ^ n : Nat) : Int) else p

/-- `tobit(value)`: into the canonical range [-2^31, 2^31 - 1] (R73). -/
def tobit (value : Int) : Int :=
  let v := mod value Config.modulus
  if Config.signBound ≤ v then v - Config.modulus else v

/-- `trunc_W(v)`: keep the low N(W) bits, read them by W's signedness (R76). For an unsigned width
the pattern is the value (`zext_n`, R75). -/
def trunc (w : Width) (v : Int) : Int :=
  let u := mod v ((2 ^ w.bits : Nat) : Int)
  if w.signed then sext w.bits u else u

end Machine

end Sys2Proof
end

