-- ==== Sys2Proof/WellFormed.lean ====
section
/-! DEFINITION. What a requester may present and be answered with STATUS = OK: a command byte that selects an
instruction (30_encoding.md R54, R55) and, for a shift, a well-formed shift argument
(60_exceptions.md R200, R204). The checks are written on the bit patterns and not by the machine's
own functions. A request that fails one is still served: it gets a fault response. -/

namespace Sys2Proof

/-- CMD[7] is 0 (R51). -/
def CmdByte.reservedClear (c : CmdByte) : Bool := !c.getLsbD 7

/-- CMD[2:0] is below 6 (R52). -/
def CmdByte.operationDefined (c : CmdByte) : Bool := decide (c.toNat % 8 < 6)

/-- CMD[6:3] is below 9 (R53). -/
def CmdByte.widthDefined (c : CmdByte) : Bool := decide (c.toNat / 8 % 16 < 9)

/-- The command byte selects one of the 54 instructions (R54, R55). -/
def CmdByte.wellFormed (c : CmdByte) : Bool :=
  CmdByte.reservedClear c && (CmdByte.operationDefined c && CmdByte.widthDefined c)

/-- R204 (a) does not hold: B is the 64-bit sign extension of B[31:0]. -/
def Bus.isExtension (b : Bus) : Bool := decide ((b.setWidth 32).signExtend 64 = b)

/-- R204 (b) does not hold: the amount is not -2^31. -/
def Bus.notMinimum (b : Bus) : Bool := decide (b.toInt ≠ -2147483648)

/-- R204 (c) does not hold: at a 64-bit width the magnitude of the amount, reduced modulo 64, is at
most 31; at any other width every amount passes. -/
def Bus.magnitudeFits (w : Width) (b : Bus) : Bool :=
  decide (w.bits = 64 → b.toInt.natAbs % 64 ≤ 31)

/-- A well-formed shift argument for a shift of width `w` (R200, R204). -/
def Bus.shiftWellFormed (w : Width) (b : Bus) : Bool :=
  Bus.isExtension b && (Bus.notMinimum b && Bus.magnitudeFits w b)

/-- The instruction's operands are well formed: only a shift can have one that is not (R205). -/
def Instr.wellFormed : Instr → Bool
  | .bshlI8 _ b | .bshrI8 _ b => Bus.shiftWellFormed .i8 b
  | .bshlU8 _ b | .bshrU8 _ b => Bus.shiftWellFormed .u8 b
  | .bshlI16 _ b | .bshrI16 _ b => Bus.shiftWellFormed .i16 b
  | .bshlU16 _ b | .bshrU16 _ b => Bus.shiftWellFormed .u16 b
  | .bshlI32 _ b | .bshrI32 _ b => Bus.shiftWellFormed .i32 b
  | .bshlU32 _ b | .bshrU32 _ b => Bus.shiftWellFormed .u32 b
  | .bshlI64 _ b | .bshrI64 _ b => Bus.shiftWellFormed .i64 b
  | .bshlU64 _ b | .bshrU64 _ b => Bus.shiftWellFormed .u64 b
  | .bshlC16 _ b | .bshrC16 _ b => Bus.shiftWellFormed .c16 b
  | .bandI8 .. | .bandU8 .. | .bandI16 .. | .bandU16 .. | .bandI32 .. | .bandU32 .. | .bandI64 ..
  | .bandU64 .. | .bandC16 .. => true
  | .borI8 .. | .borU8 .. | .borI16 .. | .borU16 .. | .borI32 .. | .borU32 .. | .borI64 ..
  | .borU64 .. | .borC16 .. => true
  | .bxorI8 .. | .bxorU8 .. | .bxorI16 .. | .bxorU16 .. | .bxorI32 .. | .bxorU32 .. | .bxorI64 ..
  | .bxorU64 .. | .bxorC16 .. => true
  | .bnotI8 .. | .bnotU8 .. | .bnotI16 .. | .bnotU16 .. | .bnotI32 .. | .bnotU32 .. | .bnotI64 ..
  | .bnotU64 .. | .bnotC16 .. => true

end Sys2Proof
end

