-- ==== Sys2Proof/Decode.lean ====
section
/-! DEFINITION. The command byte's fields, the decoder and the encoder (30_encoding.md R51 to R55, R64).
The decoder goes field by field in the order of R54; the encoder writes the CMD values of the opcode
map R64 out as the map prints them, so that each is a check of the other. -/

namespace Sys2Proof

/-! ## The fields of the command byte (R51) -/

/-- CMD[7], reserved, must be 0 (R51). -/
def reservedField (c : CmdByte) : BitVec 1 := c.extractLsb' 7 1

/-- CMD[2:0], the operation code (R51). -/
def opField (c : CmdByte) : BitVec 3 := c.extractLsb' 0 3

/-- CMD[6:3], the width code (R51). -/
def widField (c : CmdByte) : BitVec 4 := c.extractLsb' 3 4

/-- The operation a code selects; the codes 6 and 7 are reserved (R52). -/
def operationOfCode (op : BitVec 3) : Option Operation :=
  match op.toNat with
  | 0 => some .band
  | 1 => some .bor
  | 2 => some .bxor
  | 3 => some .bnot
  | 4 => some .bshl
  | 5 => some .bshr
  | _ => none

/-- The width a code selects; the codes 9 to 15 are reserved (R53, 00_scope.md R8). -/
def widthOfCode (wid : BitVec 4) : Option Width :=
  match wid.toNat with
  | 0 => some .i8
  | 1 => some .u8
  | 2 => some .i16
  | 3 => some .u16
  | 4 => some .i32
  | 5 => some .u32
  | 6 => some .i64
  | 7 => some .u64
  | 8 => some .c16
  | _ => none

/-- The code of an operation (R52). -/
def Operation.code : Operation → Nat
  | .band => 0
  | .bor => 1
  | .bxor => 2
  | .bnot => 3
  | .bshl => 4
  | .bshr => 5

/-- The code of a width (R8, R53). -/
def Width.code : Width → Nat
  | .i8 => 0
  | .u8 => 1
  | .i16 => 2
  | .u16 => 3
  | .i32 => 4
  | .u32 => 5
  | .i64 => 6
  | .u64 => 7
  | .c16 => 8

/-! ## Decoding -/

/-- Why a command byte selects no instruction: the three tests of R54 by name. All three raise
ILLEGAL_CMD (60_exceptions.md R203). -/
inductive DecodeReject where
  /-- CMD[7] is 1. -/
  | reservedBit
  /-- CMD[2:0] is 6 or 7. -/
  | reservedOperation
  /-- CMD[6:3] is in [9, 15]. -/
  | reservedWidth
deriving DecidableEq, Repr

/-- The instruction of an (operation, width) pair on the given buses: the cells of the opcode map
R64. NOT takes A alone (R52, R57). -/
def instrOf (op : Operation) (w : Width) (a b : Bus) : Instr :=
  match op with
  | .band =>
    match w with
    | .i8 => .bandI8 a b
    | .u8 => .bandU8 a b
    | .i16 => .bandI16 a b
    | .u16 => .bandU16 a b
    | .i32 => .bandI32 a b
    | .u32 => .bandU32 a b
    | .i64 => .bandI64 a b
    | .u64 => .bandU64 a b
    | .c16 => .bandC16 a b
  | .bor =>
    match w with
    | .i8 => .borI8 a b
    | .u8 => .borU8 a b
    | .i16 => .borI16 a b
    | .u16 => .borU16 a b
    | .i32 => .borI32 a b
    | .u32 => .borU32 a b
    | .i64 => .borI64 a b
    | .u64 => .borU64 a b
    | .c16 => .borC16 a b
  | .bxor =>
    match w with
    | .i8 => .bxorI8 a b
    | .u8 => .bxorU8 a b
    | .i16 => .bxorI16 a b
    | .u16 => .bxorU16 a b
    | .i32 => .bxorI32 a b
    | .u32 => .bxorU32 a b
    | .i64 => .bxorI64 a b
    | .u64 => .bxorU64 a b
    | .c16 => .bxorC16 a b
  | .bnot =>
    match w with
    | .i8 => .bnotI8 a
    | .u8 => .bnotU8 a
    | .i16 => .bnotI16 a
    | .u16 => .bnotU16 a
    | .i32 => .bnotI32 a
    | .u32 => .bnotU32 a
    | .i64 => .bnotI64 a
    | .u64 => .bnotU64 a
    | .c16 => .bnotC16 a
  | .bshl =>
    match w with
    | .i8 => .bshlI8 a b
    | .u8 => .bshlU8 a b
    | .i16 => .bshlI16 a b
    | .u16 => .bshlU16 a b
    | .i32 => .bshlI32 a b
    | .u32 => .bshlU32 a b
    | .i64 => .bshlI64 a b
    | .u64 => .bshlU64 a b
    | .c16 => .bshlC16 a b
  | .bshr =>
    match w with
    | .i8 => .bshrI8 a b
    | .u8 => .bshrU8 a b
    | .i16 => .bshrI16 a b
    | .u16 => .bshrU16 a b
    | .i32 => .bshrI32 a b
    | .u32 => .bshrU32 a b
    | .i64 => .bshrI64 a b
    | .u64 => .bshrU64 a b
    | .c16 => .bshrC16 a b

/-- R54: CMD[7], then OP, then WID are tested; a byte that passes selects exactly one instruction.
Total on every request. -/
def decode (q : Request) : Except DecodeReject Instr :=
  if reservedField q.cmd ≠ 0 then .error .reservedBit
  else
    match operationOfCode (opField q.cmd) with
    | none => .error .reservedOperation
    | some op =>
      match widthOfCode (widField q.cmd) with
      | none => .error .reservedWidth
      | some w => .ok (instrOf op w q.a q.b)

/-! ## Encoding -/

/-- The CMD value of each instruction, as the opcode map R64 prints it. -/
def Instr.cmd : Instr → CmdByte
  | .bandI8 _ _ => 0x00
  | .bandU8 _ _ => 0x08
  | .bandI16 _ _ => 0x10
  | .bandU16 _ _ => 0x18
  | .bandI32 _ _ => 0x20
  | .bandU32 _ _ => 0x28
  | .bandI64 _ _ => 0x30
  | .bandU64 _ _ => 0x38
  | .bandC16 _ _ => 0x40
  | .borI8 _ _ => 0x01
  | .borU8 _ _ => 0x09
  | .borI16 _ _ => 0x11
  | .borU16 _ _ => 0x19
  | .borI32 _ _ => 0x21
  | .borU32 _ _ => 0x29
  | .borI64 _ _ => 0x31
  | .borU64 _ _ => 0x39
  | .borC16 _ _ => 0x41
  | .bxorI8 _ _ => 0x02
  | .bxorU8 _ _ => 0x0A
  | .bxorI16 _ _ => 0x12
  | .bxorU16 _ _ => 0x1A
  | .bxorI32 _ _ => 0x22
  | .bxorU32 _ _ => 0x2A
  | .bxorI64 _ _ => 0x32
  | .bxorU64 _ _ => 0x3A
  | .bxorC16 _ _ => 0x42
  | .bnotI8 _ => 0x03
  | .bnotU8 _ => 0x0B
  | .bnotI16 _ => 0x13
  | .bnotU16 _ => 0x1B
  | .bnotI32 _ => 0x23
  | .bnotU32 _ => 0x2B
  | .bnotI64 _ => 0x33
  | .bnotU64 _ => 0x3B
  | .bnotC16 _ => 0x43
  | .bshlI8 _ _ => 0x04
  | .bshlU8 _ _ => 0x0C
  | .bshlI16 _ _ => 0x14
  | .bshlU16 _ _ => 0x1C
  | .bshlI32 _ _ => 0x24
  | .bshlU32 _ _ => 0x2C
  | .bshlI64 _ _ => 0x34
  | .bshlU64 _ _ => 0x3C
  | .bshlC16 _ _ => 0x44
  | .bshrI8 _ _ => 0x05
  | .bshrU8 _ _ => 0x0D
  | .bshrI16 _ _ => 0x15
  | .bshrU16 _ _ => 0x1D
  | .bshrI32 _ _ => 0x25
  | .bshrU32 _ _ => 0x2D
  | .bshrI64 _ _ => 0x35
  | .bshrU64 _ _ => 0x3D
  | .bshrC16 _ _ => 0x45

/-- The operand pattern A of an instruction. -/
def Instr.busA : Instr → Bus
  | .bandI8 a _ => a
  | .bandU8 a _ => a
  | .bandI16 a _ => a
  | .bandU16 a _ => a
  | .bandI32 a _ => a
  | .bandU32 a _ => a
  | .bandI64 a _ => a
  | .bandU64 a _ => a
  | .bandC16 a _ => a
  | .borI8 a _ => a
  | .borU8 a _ => a
  | .borI16 a _ => a
  | .borU16 a _ => a
  | .borI32 a _ => a
  | .borU32 a _ => a
  | .borI64 a _ => a
  | .borU64 a _ => a
  | .borC16 a _ => a
  | .bxorI8 a _ => a
  | .bxorU8 a _ => a
  | .bxorI16 a _ => a
  | .bxorU16 a _ => a
  | .bxorI32 a _ => a
  | .bxorU32 a _ => a
  | .bxorI64 a _ => a
  | .bxorU64 a _ => a
  | .bxorC16 a _ => a
  | .bnotI8 a => a
  | .bnotU8 a => a
  | .bnotI16 a => a
  | .bnotU16 a => a
  | .bnotI32 a => a
  | .bnotU32 a => a
  | .bnotI64 a => a
  | .bnotU64 a => a
  | .bnotC16 a => a
  | .bshlI8 a _ => a
  | .bshlU8 a _ => a
  | .bshlI16 a _ => a
  | .bshlU16 a _ => a
  | .bshlI32 a _ => a
  | .bshlU32 a _ => a
  | .bshlI64 a _ => a
  | .bshlU64 a _ => a
  | .bshlC16 a _ => a
  | .bshrI8 a _ => a
  | .bshrU8 a _ => a
  | .bshrI16 a _ => a
  | .bshrU16 a _ => a
  | .bshrI32 a _ => a
  | .bshrU32 a _ => a
  | .bshrI64 a _ => a
  | .bshrU64 a _ => a
  | .bshrC16 a _ => a

/-- The operand pattern B of an instruction; for NOT the assembler places 0 in B (R65). -/
def Instr.busB : Instr → Bus
  | .bandI8 _ b => b
  | .bandU8 _ b => b
  | .bandI16 _ b => b
  | .bandU16 _ b => b
  | .bandI32 _ b => b
  | .bandU32 _ b => b
  | .bandI64 _ b => b
  | .bandU64 _ b => b
  | .bandC16 _ b => b
  | .borI8 _ b => b
  | .borU8 _ b => b
  | .borI16 _ b => b
  | .borU16 _ b => b
  | .borI32 _ b => b
  | .borU32 _ b => b
  | .borI64 _ b => b
  | .borU64 _ b => b
  | .borC16 _ b => b
  | .bxorI8 _ b => b
  | .bxorU8 _ b => b
  | .bxorI16 _ b => b
  | .bxorU16 _ b => b
  | .bxorI32 _ b => b
  | .bxorU32 _ b => b
  | .bxorI64 _ b => b
  | .bxorU64 _ b => b
  | .bxorC16 _ b => b
  | .bnotI8 _ => 0
  | .bnotU8 _ => 0
  | .bnotI16 _ => 0
  | .bnotU16 _ => 0
  | .bnotI32 _ => 0
  | .bnotU32 _ => 0
  | .bnotI64 _ => 0
  | .bnotU64 _ => 0
  | .bnotC16 _ => 0
  | .bshlI8 _ b => b
  | .bshlU8 _ b => b
  | .bshlI16 _ b => b
  | .bshlU16 _ b => b
  | .bshlI32 _ b => b
  | .bshlU32 _ b => b
  | .bshlI64 _ b => b
  | .bshlU64 _ b => b
  | .bshlC16 _ b => b
  | .bshrI8 _ b => b
  | .bshrU8 _ b => b
  | .bshrI16 _ b => b
  | .bshrU16 _ b => b
  | .bshrI32 _ b => b
  | .bshrU32 _ b => b
  | .bshrI64 _ b => b
  | .bshrU64 _ b => b
  | .bshrC16 _ b => b

/-- The request of an instruction: its CMD byte (R64) with its operand patterns. -/
def encode (i : Instr) : Request := ⟨i.cmd, i.busA, i.busB⟩

/-! ## The image of a request (log entry 7) -/

/-- A request as one number, CMD lowest, then A, then B. -/
def Request.image (q : Request) : RequestImage := q.b ++ (q.a ++ q.cmd)

/-- The request an image holds: CMD in bits 7..0, A in bits 71..8, B in bits 135..72. -/
def Request.ofImage (w : RequestImage) : Request :=
  ⟨w.extractLsb' 0 8, w.extractLsb' 8 64, w.extractLsb' 72 64⟩

/-- The instruction's whole encoding as one number. -/
def encodeImage (i : Instr) : RequestImage := (encode i).image

/-- Decode a whole request given as one number. -/
def decodeImage (w : RequestImage) : Except DecodeReject Instr := decode (Request.ofImage w)

/-- The image of a row of spec/opcode_table.json: the low `nbits` bits of `w`, every bit above them
0 (so operand buses the table gives no bits are zero). -/
def tableImage (nbits w : Nat) : RequestImage := BitVec.ofNat _ (w % 2 ^ nbits)

/-- The instruction the decoder reads from a table row's bits; none where it rejects them. -/
def decodeTableWord (nbits w : Nat) : Option Instr :=
  match decodeImage (tableImage nbits w) with
  | .ok i => some i
  | .error _ => none

end Sys2Proof
end

