-- ==== Sys2Proof/Machine/Table.lean ====
section
/-! DEFINITION. The power-of-two table (10_state.md R21): its contents, the read of an entry, and the bit
extraction that reads it (40_primitives.md R74). -/

namespace Sys2Proof.Machine

/-- The contents reset writes, bit pattern by bit pattern as R21 lists them. -/
def pow2Contents : PowTable :=
  #v[0x00000001, 0x00000002, 0x00000004, 0x00000008, 0x00000010, 0x00000020, 0x00000040, 0x00000080,
     0x00000100, 0x00000200, 0x00000400, 0x00000800, 0x00001000, 0x00002000, 0x00004000, 0x00008000,
     0x00010000, 0x00020000, 0x00040000, 0x00080000, 0x00100000, 0x00200000, 0x00400000, 0x00800000,
     0x01000000, 0x02000000, 0x04000000, 0x08000000, 0x10000000, 0x20000000, 0x40000000, 0x80000000]

/-- `Pow2[i]`: the read of one whole entry as an unsigned value (R21, 20_memory.md R39). The index
type is [0, 31], so no read outside the table can be written (20_memory.md R38). -/
def readPow2 (t : PowTable) (i : Fin 32) : Int := ((t.get i).toNat : Int)

/-- Bit extraction: `bit(value, i) = mod(floor(value / Pow2[i]), 2)` (R74). -/
def bit (t : PowTable) (value : Int) (i : Fin 32) : Int := mod (fdiv value (readPow2 t i)) 2

end Sys2Proof.Machine
end

