-- ==== Sys2Proof/Machine/State.lean ====
section
/-! DEFINITION. The state of the engine and its ports (10_state.md R21, R24, R25, R31, R33), the causes of a
fault response (60_exceptions.md R202), and the machine after reset (70_reset_and_hazards.md R221). -/

namespace Sys2Proof.Machine

/-- What a SHIFT_RANGE fault carries: the bus B where B is no sign extension (R204 (a)), the amount n
in the cases (b) and (c) (R201, R206). A model's diagnostic, not a response field. -/
inductive ShiftInfo where
  | bus (b : Bus)
  | amount (n : Int)
deriving DecidableEq, Repr

/-- The causes of a fault response with their info (R201, R202). -/
inductive Cause where
  /-- The command byte selects no instruction (R203). -/
  | illegalCmd (cmd : CmdByte)
  /-- The shift amount is not usable (R204). -/
  | shiftRange (info : ShiftInfo)
deriving DecidableEq, Repr

/-- The engine's answer to one request (R25): a result, or a fault outcome that carries its cause
and no value (R201). -/
inductive Response where
  /-- STATUS = OK with the result pattern R (R63). -/
  | ok (r : Bus)
  /-- STATUS is the cause's code; there is no R (R201, 93_implementation_defined.md I6). -/
  | raised (e : Cause)
deriving DecidableEq, Repr

/-- The machine. `pow2` and `constructed` are all the state the spec gives the engine (R33);
`pending` and `response` are its request and response ports, held here because a step is a function
of the state (R24, R25, R34; log entries 2 and 3). -/
structure State where
  /-- `Pow2[0..31]` (R21), written by reset only (R22). -/
  pow2 : PowTable
  /-- The table has been constructed (R31); false only while reset is asserted (R223). -/
  constructed : Bool
  /-- The requests presented and not served yet, oldest first (R42, R47, R226). -/
  pending : List Request
  /-- The response the last step returned; none when it returned none (R222). -/
  response : Option Response
deriving DecidableEq, Repr

/-- What stops a reader of the response fields. No step ends in one of these: a fault of the
hardware is a response (`Response.raised`). -/
inductive Fault where
  /-- STATUS or R was read and there is no response: `State.readStatus` and `State.readResult` raise
  it. Safe: the spec gives the fields no value there (R222). -/
  | noResponse
  /-- R was read from a response whose STATUS is not OK: `State.readResult` raises it. Safe: such a
  response carries no result (R25, R201). -/
  | noResult
deriving DecidableEq, Repr

/-- What the model declines. No arm of exec ends in one. -/
inductive Refusal where
  /-- An instruction without a meaning; raised by exec's arms only, and by none of them now.
  Safe: nothing is claimed of the instruction. -/
  | notModelled (mnemonic : String)
deriving DecidableEq, Repr

/-- The machine right after reset (R221): the table built and marked constructed, no request
pending, no response. -/
def State.reset : State :=
  { pow2 := pow2Contents
    constructed := true
    pending := []
    response := none }

end Sys2Proof.Machine
end

