-- ==== Sys2Proof/Machine/Canonical.lean ====
section
/-! DEFINITION. The six canonical operations on signed 32-bit words, loop by loop as the spec writes them
(41_and_or.md R90, R92; 42_xor.md R120; 43_not.md R140; 44_shift.md R160 to R163). -/

namespace Sys2Proof.Machine

/-- `for i = 0..31`: run the body at i = 0, 1, ..., 31 in that order, with no early exit
(00_scope.md R12). -/
def forBits {α : Type} (init : α) (body : α → Fin 32 → α) : α :=
  (List.finRange 32).foldl body init

/-- `bAnd` (R90): accumulate `Pow2[i]` where both bits are 1, then normalise. -/
def bAnd (t : PowTable) (left right : Int) : Int :=
  tobit (forBits (0 : Int) fun acc i =>
    if bit t left i = 1 ∧ bit t right i = 1 then acc + readPow2 t i else acc)

/-- `bOr` (R92): the loop of R90, where either bit is 1. -/
def bOr (t : PowTable) (left right : Int) : Int :=
  tobit (forBits (0 : Int) fun acc i =>
    if bit t left i = 1 ∨ bit t right i = 1 then acc + readPow2 t i else acc)

/-- The variables of the XOR loop (R120): the accumulator and the operands being consumed. They do
not outlive a request (10_state.md R32). -/
structure XorLoop where
  acc : Int
  left : Int
  right : Int
deriving DecidableEq, Repr

/-- One step of the XOR loop (R120): test both bits, adjust, then divide both by floor division.
`right` is not decremented when both bits are 1. -/
def xorStep (t : PowTable) (v : XorLoop) (i : Fin 32) : XorLoop :=
  let lb := mod v.left 2
  let rb := mod v.right 2
  { acc := if (lb = 0 ∧ rb = 1) ∨ (lb = 1 ∧ rb = 0) then v.acc + readPow2 t i else v.acc
    left := fdiv (if lb = 1 then v.left - 1 else v.left) 2
    right := fdiv (if lb = 0 ∧ rb = 1 then v.right - 1 else v.right) 2 }

/-- `bXor` (R120). -/
def bXor (t : PowTable) (left right : Int) : Int :=
  tobit (forBits (XorLoop.mk 0 left right) (xorStep t)).acc

/-- `bNot` (R140): `tobit(MODM - mod(value, MOD))`; it reads no table entry. -/
def bNot (value : Int) : Int :=
  tobit (Config.modulusMinusOne - mod value Config.modulus)

/-- Shift-left by an amount in [0, 31] (R162). -/
def shlBy (t : PowTable) (value : Int) (i : Fin 32) : Int :=
  tobit (value * mod (readPow2 t i) Config.modulus)

/-- Shift-right by an amount in [0, 31] (R163): the value is reduced to its unsigned pattern first,
so zeros come in from the left. -/
def shrBy (t : PowTable) (value : Int) (i : Fin 32) : Int :=
  tobit (fdiv (mod value Config.modulus) (readPow2 t i))

/-- The two directions of a shift (R164). -/
inductive ShiftKind where
  | shl
  | shr
deriving DecidableEq, Repr

/-- The other direction, to which a negative amount delegates (R160). -/
def ShiftKind.flip : ShiftKind → ShiftKind
  | .shl => .shr
  | .shr => .shl

/-- The canonical shift of a direction by an amount in [0, 31] (R162, R163). -/
def shiftBy (k : ShiftKind) (t : PowTable) (value : Int) (i : Fin 32) : Int :=
  match k with
  | .shl => shlBy t value i
  | .shr => shrBy t value i

/-- An amount reduced modulo 32 indexes the table (R161). -/
def reduce32 (n : Int) : Fin 32 := Fin.ofNat 32 (mod n 32).toNat

/-- A canonical shift by any signed 32-bit amount (R160): the sign is tested first, -2^31 is a usage
error (R165), a negative amount delegates to the other direction once, and the magnitude is reduced
modulo 32 (R161). -/
def canonicalShift (k : ShiftKind) (t : PowTable) (value shift : Int) : Except Cause Int :=
  if shift < 0 then
    if shift = Config.minAmount then .error (.shiftRange (.amount shift))
    else .ok (shiftBy k.flip t value (reduce32 (-shift)))
  else .ok (shiftBy k t value (reduce32 shift))

/-- `bShl(value, shift)` (R160). -/
def bShl (t : PowTable) (value shift : Int) : Except Cause Int := canonicalShift .shl t value shift

/-- `bShr(value, shift)` (R160). -/
def bShr (t : PowTable) (value shift : Int) : Except Cause Int := canonicalShift .shr t value shift

end Sys2Proof.Machine
end

