-- ==== Sys2Proof/Machine/Flags.lean ====
section
/-! DEFINITION. The engine has no flags and no condition codes (10_state.md R29): no instruction computes a carry,
overflow, zero or sign flag. The only status it reports is the response's STATUS field
(60_exceptions.md R202), computed here, with the fields as a requester reads them. -/

namespace Sys2Proof.Machine

/-- The code of a cause in STATUS (R202). -/
def Cause.status : Cause → Status
  | .illegalCmd _ => 1
  | .shiftRange _ => 2

/-- The STATUS field of a response (R25, R202). -/
def Response.status : Response → Status
  | .ok _ => 0
  | .raised e => e.status

/-- The R field of a response: a value only when STATUS is OK (R25). -/
def Response.result : Response → Option Bus
  | .ok r => some r
  | .raised _ => none

/-- A requester reads STATUS: no value before a request has been served (R222). -/
def State.readStatus (s : State) : Except Fault Status :=
  match s.response with
  | none => .error .noResponse
  | some p => .ok p.status

/-- A requester reads R: no value before a request has been served (R222) and none in a fault
response (R25, R201). -/
def State.readResult (s : State) : Except Fault Bus :=
  match s.response with
  | none => .error .noResponse
  | some (.ok r) => .ok r
  | some (.raised _) => .error .noResult

end Sys2Proof.Machine
end

