-- ==== Sys2Proof/Machine/Ops.lean ====
section
/-! DEFINITION. The named operations on the state: ending a request with a result or with a fault, the request
port, and reset. The engine has no data memory and no registers (20_memory.md R35, 10_state.md R27),
so there are no operations on those; the table is read by `readPow2` and written by `State.build`. -/

namespace Sys2Proof.Machine

/-- The bus pattern of an integer: `mod(v, 2^64)` (30_encoding.md R62, R65). -/
def busOf (v : Int) : Bus := BitVec.ofNat 64 (mod v Config.busModulus).toNat

/-- The state whose response is `p`; nothing else changes. -/
def State.withResponse (s : State) (p : Response) : State := { s with response := some p }

/-- `respond(r)`: end the request with STATUS = OK and R = mod(r, 2^64) (R62, R63). -/
def respond (r : Int) (s : State) : Host.Outcome State Fault Refusal :=
  .next (s.withResponse (.ok (busOf r)))

/-- `raise E(info)`, the engine's whole exception entry: the request ends with STATUS = E and no
result, no state is saved or changed, and control goes nowhere (60_exceptions.md R201, R207). The
engine is ready for the next request at once, so there is no return from it to model (R208). -/
def raise (e : Cause) (s : State) : Host.Outcome State Fault Refusal :=
  .next (s.withResponse (.raised e))

/-! ## The request port -/

/-- The requester presents a request: it waits behind those presented before it, also while reset is
asserted (20_memory.md R42, R47; 70_reset_and_hazards.md R223, R226). -/
def State.present (s : State) (q : Request) : State := { s with pending := s.pending ++ [q] }

/-- The engine accepts the oldest request; `qs` are those still waiting. -/
def State.accept (s : State) (qs : List Request) : State := { s with pending := qs }

/-- No request is served: the engine executes nothing (R221), and the last response, which lasts
for its own request only (10_state.md R27, R29), is over (log entry 3). -/
def State.idle (s : State) : State := { s with response := none }

/-! ## Reset -/

/-- Reset is asserted from outside: no request before it survives, there is no response, and the
table is not usable until it is built (R221, R223; log entry 5). -/
def State.assertReset (s : State) : State :=
  { s with constructed := false, pending := [], response := none }

/-- The end of reset: the table is written and marked constructed (R220); a request presented during
reset goes on waiting (R223). -/
def State.build (s : State) : State :=
  { s with pow2 := pow2Contents, constructed := true, response := none }

end Sys2Proof.Machine
end

