-- ==== Sys2Proof/Machine/Operands.lean ====
section
/-! DEFINITION. Operand assembly, shift-amount processing and the width dispatch shared by all instructions
(30_encoding.md R56, R57; 40_primitives.md R77 to R79; 44_shift.md R164). -/

namespace Sys2Proof.Machine

/-- The operand value of a bus at a width: `trunc_W` of the pattern read as an unsigned integer
(R56). Bits above the width are ignored. -/
def operand (w : Width) (x : Bus) : Int := trunc w (x.toNat : Int)

/-- The shift amount of bus B (R57): B must be the 64-bit sign extension of B[31:0], which is the
signed amount; it is not truncated to the width. -/
def shiftAmount (b : Bus) : Except Cause Int :=
  let n := sext 32 (slice (b.toNat : Int) 31 0)
  if (b.toNat : Int) ≠ mod n Config.busModulus then .error (.shiftRange (.bus b)) else .ok n

/-- The magnitude `m` of an amount `n` reduced modulo N(W), as a table index; 32 to 63, which only a
64-bit width reaches, is a usage error (R164, R166). -/
def reduceAmount (k : ShiftKind) (w : Width) (n m : Int) : Except Cause (ShiftKind × Fin 32) :=
  let s := (mod m (w.bits : Int)).toNat
  if h : s < 32 then .ok (k, ⟨s, h⟩) else .error (.shiftRange (.amount n))

/-- `shamt(k, W, n)` (R164): the sign test first (R160, R165), then the reduction. -/
def shamt (k : ShiftKind) (w : Width) (n : Int) : Except Cause (ShiftKind × Fin 32) :=
  if n < 0 then
    if n = Config.minAmount then .error (.shiftRange (.amount n))
    else reduceAmount k.flip w n (-n)
  else reduceAmount k w n n

/-- Width dispatch of a two-operand operation (R77). -/
def dispatch2 (f : PowTable → Int → Int → Int) (w : Width) (a b : Bus) (s : State) :
    Host.Outcome State Fault Refusal :=
  respond (trunc w (f s.pow2 (tobit (operand w a)) (tobit (operand w b)))) s

/-- Width dispatch of NOT (R78); B is not read. -/
def dispatch1 (w : Width) (a : Bus) (s : State) : Host.Outcome State Fault Refusal :=
  respond (trunc w (bNot (tobit (operand w a)))) s

/-- Width dispatch of a shift (R79, R164): B's form is checked first, then the amount
(60_exceptions.md R206). -/
def dispatchShift (k : ShiftKind) (w : Width) (a b : Bus) (s : State) :
    Host.Outcome State Fault Refusal :=
  match shiftAmount b with
  | .error e => raise e s
  | .ok n =>
    match shamt k w n with
    | .error e => raise e s
    | .ok (k', i) => respond (trunc w (shiftBy k' s.pow2 (tobit (operand w a)) i)) s

end Sys2Proof.Machine
end

