-- ==== Sys2Proof/Machine/And.lean ====
section
/-! DEFINITION. The nine width-dispatched AND instructions (41_and_or.md R94 to R102): one meaning each,
over the shared dispatch of Operands.lean. -/

namespace Sys2Proof.Machine

/-- `band.i8` (41_and_or.md R94). -/
def execBandI8 (a b : Bus) (s : State) : Host.Outcome State Fault Refusal :=
  dispatch2 bAnd .i8 a b s

/-- `band.u8` (41_and_or.md R95). -/
def execBandU8 (a b : Bus) (s : State) : Host.Outcome State Fault Refusal :=
  dispatch2 bAnd .u8 a b s

/-- `band.i16` (41_and_or.md R96). -/
def execBandI16 (a b : Bus) (s : State) : Host.Outcome State Fault Refusal :=
  dispatch2 bAnd .i16 a b s

/-- `band.u16` (41_and_or.md R97). -/
def execBandU16 (a b : Bus) (s : State) : Host.Outcome State Fault Refusal :=
  dispatch2 bAnd .u16 a b s

/-- `band.i32` (41_and_or.md R98). -/
def execBandI32 (a b : Bus) (s : State) : Host.Outcome State Fault Refusal :=
  dispatch2 bAnd .i32 a b s

/-- `band.u32` (41_and_or.md R99). -/
def execBandU32 (a b : Bus) (s : State) : Host.Outcome State Fault Refusal :=
  dispatch2 bAnd .u32 a b s

/-- `band.i64` (41_and_or.md R100). -/
def execBandI64 (a b : Bus) (s : State) : Host.Outcome State Fault Refusal :=
  dispatch2 bAnd .i64 a b s

/-- `band.u64` (41_and_or.md R101). -/
def execBandU64 (a b : Bus) (s : State) : Host.Outcome State Fault Refusal :=
  dispatch2 bAnd .u64 a b s

/-- `band.c16` (41_and_or.md R102). -/
def execBandC16 (a b : Bus) (s : State) : Host.Outcome State Fault Refusal :=
  dispatch2 bAnd .c16 a b s

end Sys2Proof.Machine
end

