-- ==== Sys2Proof/Machine/Not.lean ====
section
/-! DEFINITION. The nine width-dispatched NOT instructions (43_not.md R142 to R150): one meaning each,
over the shared dispatch of Operands.lean. -/

namespace Sys2Proof.Machine

/-- `bnot.i8` (43_not.md R142). -/
def execBnotI8 (a : Bus) (s : State) : Host.Outcome State Fault Refusal :=
  dispatch1 .i8 a s

/-- `bnot.u8` (43_not.md R143). -/
def execBnotU8 (a : Bus) (s : State) : Host.Outcome State Fault Refusal :=
  dispatch1 .u8 a s

/-- `bnot.i16` (43_not.md R144). -/
def execBnotI16 (a : Bus) (s : State) : Host.Outcome State Fault Refusal :=
  dispatch1 .i16 a s

/-- `bnot.u16` (43_not.md R145). -/
def execBnotU16 (a : Bus) (s : State) : Host.Outcome State Fault Refusal :=
  dispatch1 .u16 a s

/-- `bnot.i32` (43_not.md R146). -/
def execBnotI32 (a : Bus) (s : State) : Host.Outcome State Fault Refusal :=
  dispatch1 .i32 a s

/-- `bnot.u32` (43_not.md R147). -/
def execBnotU32 (a : Bus) (s : State) : Host.Outcome State Fault Refusal :=
  dispatch1 .u32 a s

/-- `bnot.i64` (43_not.md R148). -/
def execBnotI64 (a : Bus) (s : State) : Host.Outcome State Fault Refusal :=
  dispatch1 .i64 a s

/-- `bnot.u64` (43_not.md R149). -/
def execBnotU64 (a : Bus) (s : State) : Host.Outcome State Fault Refusal :=
  dispatch1 .u64 a s

/-- `bnot.c16` (43_not.md R150). -/
def execBnotC16 (a : Bus) (s : State) : Host.Outcome State Fault Refusal :=
  dispatch1 .c16 a s

end Sys2Proof.Machine
end

