-- ==== Sys2Proof/Machine/Or.lean ====
section
/-! DEFINITION. The nine width-dispatched OR instructions (41_and_or.md R103 to R111): one meaning each,
over the shared dispatch of Operands.lean. -/

namespace Sys2Proof.Machine

/-- `bor.i8` (41_and_or.md R103). -/
def execBorI8 (a b : Bus) (s : State) : Host.Outcome State Fault Refusal :=
  dispatch2 bOr .i8 a b s

/-- `bor.u8` (41_and_or.md R104). -/
def execBorU8 (a b : Bus) (s : State) : Host.Outcome State Fault Refusal :=
  dispatch2 bOr .u8 a b s

/-- `bor.i16` (41_and_or.md R105). -/
def execBorI16 (a b : Bus) (s : State) : Host.Outcome State Fault Refusal :=
  dispatch2 bOr .i16 a b s

/-- `bor.u16` (41_and_or.md R106). -/
def execBorU16 (a b : Bus) (s : State) : Host.Outcome State Fault Refusal :=
  dispatch2 bOr .u16 a b s

/-- `bor.i32` (41_and_or.md R107). -/
def execBorI32 (a b : Bus) (s : State) : Host.Outcome State Fault Refusal :=
  dispatch2 bOr .i32 a b s

/-- `bor.u32` (41_and_or.md R108). -/
def execBorU32 (a b : Bus) (s : State) : Host.Outcome State Fault Refusal :=
  dispatch2 bOr .u32 a b s

/-- `bor.i64` (41_and_or.md R109). -/
def execBorI64 (a b : Bus) (s : State) : Host.Outcome State Fault Refusal :=
  dispatch2 bOr .i64 a b s

/-- `bor.u64` (41_and_or.md R110). -/
def execBorU64 (a b : Bus) (s : State) : Host.Outcome State Fault Refusal :=
  dispatch2 bOr .u64 a b s

/-- `bor.c16` (41_and_or.md R111). -/
def execBorC16 (a b : Bus) (s : State) : Host.Outcome State Fault Refusal :=
  dispatch2 bOr .c16 a b s

end Sys2Proof.Machine
end

