-- ==== Sys2Proof/Machine/ShiftLeft.lean ====
section
/-! DEFINITION. The nine width-dispatched SHL instructions (44_shift.md R170 to R178): one meaning each,
over the shared dispatch of Operands.lean. -/

namespace Sys2Proof.Machine

/-- `bshl.i8` (44_shift.md R170). -/
def execBshlI8 (a b : Bus) (s : State) : Host.Outcome State Fault Refusal :=
  dispatchShift .shl .i8 a b s

/-- `bshl.u8` (44_shift.md R171). -/
def execBshlU8 (a b : Bus) (s : State) : Host.Outcome State Fault Refusal :=
  dispatchShift .shl .u8 a b s

/-- `bshl.i16` (44_shift.md R172). -/
def execBshlI16 (a b : Bus) (s : State) : Host.Outcome State Fault Refusal :=
  dispatchShift .shl .i16 a b s

/-- `bshl.u16` (44_shift.md R173). -/
def execBshlU16 (a b : Bus) (s : State) : Host.Outcome State Fault Refusal :=
  dispatchShift .shl .u16 a b s

/-- `bshl.i32` (44_shift.md R174). -/
def execBshlI32 (a b : Bus) (s : State) : Host.Outcome State Fault Refusal :=
  dispatchShift .shl .i32 a b s

/-- `bshl.u32` (44_shift.md R175). -/
def execBshlU32 (a b : Bus) (s : State) : Host.Outcome State Fault Refusal :=
  dispatchShift .shl .u32 a b s

/-- `bshl.i64` (44_shift.md R176). -/
def execBshlI64 (a b : Bus) (s : State) : Host.Outcome State Fault Refusal :=
  dispatchShift .shl .i64 a b s

/-- `bshl.u64` (44_shift.md R177). -/
def execBshlU64 (a b : Bus) (s : State) : Host.Outcome State Fault Refusal :=
  dispatchShift .shl .u64 a b s

/-- `bshl.c16` (44_shift.md R178). -/
def execBshlC16 (a b : Bus) (s : State) : Host.Outcome State Fault Refusal :=
  dispatchShift .shl .c16 a b s

end Sys2Proof.Machine
end

