-- ==== Sys2Proof/Machine/ShiftRight.lean ====
section
/-! DEFINITION. The nine width-dispatched SHR instructions (44_shift.md R179 to R187): one meaning each,
over the shared dispatch of Operands.lean. -/

namespace Sys2Proof.Machine

/-- `bshr.i8` (44_shift.md R179). -/
def execBshrI8 (a b : Bus) (s : State) : Host.Outcome State Fault Refusal :=
  dispatchShift .shr .i8 a b s

/-- `bshr.u8` (44_shift.md R180). -/
def execBshrU8 (a b : Bus) (s : State) : Host.Outcome State Fault Refusal :=
  dispatchShift .shr .u8 a b s

/-- `bshr.i16` (44_shift.md R181). -/
def execBshrI16 (a b : Bus) (s : State) : Host.Outcome State Fault Refusal :=
  dispatchShift .shr .i16 a b s

/-- `bshr.u16` (44_shift.md R182). -/
def execBshrU16 (a b : Bus) (s : State) : Host.Outcome State Fault Refusal :=
  dispatchShift .shr .u16 a b s

/-- `bshr.i32` (44_shift.md R183). -/
def execBshrI32 (a b : Bus) (s : State) : Host.Outcome State Fault Refusal :=
  dispatchShift .shr .i32 a b s

/-- `bshr.u32` (44_shift.md R184). -/
def execBshrU32 (a b : Bus) (s : State) : Host.Outcome State Fault Refusal :=
  dispatchShift .shr .u32 a b s

/-- `bshr.i64` (44_shift.md R185). -/
def execBshrI64 (a b : Bus) (s : State) : Host.Outcome State Fault Refusal :=
  dispatchShift .shr .i64 a b s

/-- `bshr.u64` (44_shift.md R186). -/
def execBshrU64 (a b : Bus) (s : State) : Host.Outcome State Fault Refusal :=
  dispatchShift .shr .u64 a b s

/-- `bshr.c16` (44_shift.md R187). -/
def execBshrC16 (a b : Bus) (s : State) : Host.Outcome State Fault Refusal :=
  dispatchShift .shr .c16 a b s

end Sys2Proof.Machine
end

