-- ==== Sys2Proof/Machine/Xor.lean ====
section
/-! DEFINITION. The nine width-dispatched XOR instructions (42_xor.md R122 to R130): one meaning each,
over the shared dispatch of Operands.lean. -/

namespace Sys2Proof.Machine

/-- `bxor.i8` (42_xor.md R122). -/
def execBxorI8 (a b : Bus) (s : State) : Host.Outcome State Fault Refusal :=
  dispatch2 bXor .i8 a b s

/-- `bxor.u8` (42_xor.md R123). -/
def execBxorU8 (a b : Bus) (s : State) : Host.Outcome State Fault Refusal :=
  dispatch2 bXor .u8 a b s

/-- `bxor.i16` (42_xor.md R124). -/
def execBxorI16 (a b : Bus) (s : State) : Host.Outcome State Fault Refusal :=
  dispatch2 bXor .i16 a b s

/-- `bxor.u16` (42_xor.md R125). -/
def execBxorU16 (a b : Bus) (s : State) : Host.Outcome State Fault Refusal :=
  dispatch2 bXor .u16 a b s

/-- `bxor.i32` (42_xor.md R126). -/
def execBxorI32 (a b : Bus) (s : State) : Host.Outcome State Fault Refusal :=
  dispatch2 bXor .i32 a b s

/-- `bxor.u32` (42_xor.md R127). -/
def execBxorU32 (a b : Bus) (s : State) : Host.Outcome State Fault Refusal :=
  dispatch2 bXor .u32 a b s

/-- `bxor.i64` (42_xor.md R128). -/
def execBxorI64 (a b : Bus) (s : State) : Host.Outcome State Fault Refusal :=
  dispatch2 bXor .i64 a b s

/-- `bxor.u64` (42_xor.md R129). -/
def execBxorU64 (a b : Bus) (s : State) : Host.Outcome State Fault Refusal :=
  dispatch2 bXor .u64 a b s

/-- `bxor.c16` (42_xor.md R130). -/
def execBxorC16 (a b : Bus) (s : State) : Host.Outcome State Fault Refusal :=
  dispatch2 bXor .c16 a b s

end Sys2Proof.Machine
end

