-- ==== Sys2Proof/Machine/Dispatch.lean ====
section
/-! DEFINITION. exec: one arm per constructor of `Instr`, each one direct call of the instruction's meaning. -/

namespace Sys2Proof.Machine

def exec (i : Instr) (s : State) : Host.Outcome State Fault Refusal :=
  match i with
  | .bandI8 a b => Sys2Proof.Machine.execBandI8 a b s
  | .bandU8 a b => Sys2Proof.Machine.execBandU8 a b s
  | .bandI16 a b => Sys2Proof.Machine.execBandI16 a b s
  | .bandU16 a b => Sys2Proof.Machine.execBandU16 a b s
  | .bandI32 a b => Sys2Proof.Machine.execBandI32 a b s
  | .bandU32 a b => Sys2Proof.Machine.execBandU32 a b s
  | .bandI64 a b => Sys2Proof.Machine.execBandI64 a b s
  | .bandU64 a b => Sys2Proof.Machine.execBandU64 a b s
  | .bandC16 a b => Sys2Proof.Machine.execBandC16 a b s
  | .borI8 a b => Sys2Proof.Machine.execBorI8 a b s
  | .borU8 a b => Sys2Proof.Machine.execBorU8 a b s
  | .borI16 a b => Sys2Proof.Machine.execBorI16 a b s
  | .borU16 a b => Sys2Proof.Machine.execBorU16 a b s
  | .borI32 a b => Sys2Proof.Machine.execBorI32 a b s
  | .borU32 a b => Sys2Proof.Machine.execBorU32 a b s
  | .borI64 a b => Sys2Proof.Machine.execBorI64 a b s
  | .borU64 a b => Sys2Proof.Machine.execBorU64 a b s
  | .borC16 a b => Sys2Proof.Machine.execBorC16 a b s
  | .bxorI8 a b => Sys2Proof.Machine.execBxorI8 a b s
  | .bxorU8 a b => Sys2Proof.Machine.execBxorU8 a b s
  | .bxorI16 a b => Sys2Proof.Machine.execBxorI16 a b s
  | .bxorU16 a b => Sys2Proof.Machine.execBxorU16 a b s
  | .bxorI32 a b => Sys2Proof.Machine.execBxorI32 a b s
  | .bxorU32 a b => Sys2Proof.Machine.execBxorU32 a b s
  | .bxorI64 a b => Sys2Proof.Machine.execBxorI64 a b s
  | .bxorU64 a b => Sys2Proof.Machine.execBxorU64 a b s
  | .bxorC16 a b => Sys2Proof.Machine.execBxorC16 a b s
  | .bnotI8 a => Sys2Proof.Machine.execBnotI8 a s
  | .bnotU8 a => Sys2Proof.Machine.execBnotU8 a s
  | .bnotI16 a => Sys2Proof.Machine.execBnotI16 a s
  | .bnotU16 a => Sys2Proof.Machine.execBnotU16 a s
  | .bnotI32 a => Sys2Proof.Machine.execBnotI32 a s
  | .bnotU32 a => Sys2Proof.Machine.execBnotU32 a s
  | .bnotI64 a => Sys2Proof.Machine.execBnotI64 a s
  | .bnotU64 a => Sys2Proof.Machine.execBnotU64 a s
  | .bnotC16 a => Sys2Proof.Machine.execBnotC16 a s
  | .bshlI8 a b => Sys2Proof.Machine.execBshlI8 a b s
  | .bshlU8 a b => Sys2Proof.Machine.execBshlU8 a b s
  | .bshlI16 a b => Sys2Proof.Machine.execBshlI16 a b s
  | .bshlU16 a b => Sys2Proof.Machine.execBshlU16 a b s
  | .bshlI32 a b => Sys2Proof.Machine.execBshlI32 a b s
  | .bshlU32 a b => Sys2Proof.Machine.execBshlU32 a b s
  | .bshlI64 a b => Sys2Proof.Machine.execBshlI64 a b s
  | .bshlU64 a b => Sys2Proof.Machine.execBshlU64 a b s
  | .bshlC16 a b => Sys2Proof.Machine.execBshlC16 a b s
  | .bshrI8 a b => Sys2Proof.Machine.execBshrI8 a b s
  | .bshrU8 a b => Sys2Proof.Machine.execBshrU8 a b s
  | .bshrI16 a b => Sys2Proof.Machine.execBshrI16 a b s
  | .bshrU16 a b => Sys2Proof.Machine.execBshrU16 a b s
  | .bshrI32 a b => Sys2Proof.Machine.execBshrI32 a b s
  | .bshrU32 a b => Sys2Proof.Machine.execBshrU32 a b s
  | .bshrI64 a b => Sys2Proof.Machine.execBshrI64 a b s
  | .bshrU64 a b => Sys2Proof.Machine.execBshrU64 a b s
  | .bshrC16 a b => Sys2Proof.Machine.execBshrC16 a b s

end Sys2Proof.Machine
end

