-- ==== Sys2Proof/Machine/Serve.lean ====
section
/-! DEFINITION. Serving requests: decode, run or raise ILLEGAL_CMD (30_encoding.md R54), one request at a time in
the order they were presented (20_memory.md R42, R47), and none before the table is built
(70_reset_and_hazards.md R223). -/

namespace Sys2Proof.Machine

/-- Serve one request: an illegal command is raised before any operand is read (60_exceptions.md
R203, R206). -/
def serveRequest (q : Request) (s : State) : Host.Outcome State Fault Refusal :=
  match decode q with
  | .error _ => raise (.illegalCmd q.cmd) s
  | .ok i => exec i s

/-- Serve the oldest pending request, or execute nothing when none is pending (R221; log entry 4). -/
def serveNext (s : State) : Host.Outcome State Fault Refusal :=
  match s.pending with
  | [] => .next s.idle
  | q :: qs => serveRequest q (s.accept qs)

/-- One step of the engine: while the table is not constructed the step finishes reset and serves
nothing (R220, R223; log entry 5); after that a step serves one request. -/
def engineStep (s : State) : Host.Outcome State Fault Refusal :=
  if s.constructed then serveNext s else .next s.build

/-- Place a request so that the very next step serves it: reset is finished if it is not, and the
request goes before those that wait (log entry 6). -/
def State.placeNext (s : State) (q : Request) : State :=
  let t := if s.constructed then s else s.build
  t.accept (q :: t.pending)

end Sys2Proof.Machine
end

