-- ==== Sys2Proof/Machine/Step.lean ====
section
/-! DEFINITION. The step of the machine and the host's way to place an instruction; both only call Serve.lean. -/

namespace Sys2Proof.Machine

/-- One step: see `engineStep`. -/
def step (s : State) : Host.Outcome State Fault Refusal := engineStep s

/-- The state with the instruction of a table row (bits above `nbits` zero) as the request the next
step serves. -/
def State.withFetchWord (s : State) (nbits w : Nat) : State :=
  s.placeNext (Request.ofImage (tableImage nbits w))

end Sys2Proof.Machine
end

