-- ==== Sys2Proof/Machine/Assembler.lean ====
section
/-! DEFINITION. The assembly syntax `<mnemonic>.<width> <A>, <B>` and `bnot.<width> <A>` (30_encoding.md R65). There
are no pseudo-instructions (R66): a mnemonic names one operation, and no text is rewritten to
another instruction. Text is a list of characters. What R65 leaves open in the text (letter case of
hexadecimal digits, white space) is log entry 14. -/

namespace Sys2Proof.Machine

/-- The mnemonic of an operation (R65). -/
def operationOfName (cs : List Char) : Option Operation :=
  if cs = ['b', 'a', 'n', 'd'] then some .band
  else if cs = ['b', 'o', 'r'] then some .bor
  else if cs = ['b', 'x', 'o', 'r'] then some .bxor
  else if cs = ['b', 'n', 'o', 't'] then some .bnot
  else if cs = ['b', 's', 'h', 'l'] then some .bshl
  else if cs = ['b', 's', 'h', 'r'] then some .bshr
  else none

/-- The suffix of a width (R65). -/
def widthOfName (cs : List Char) : Option Width :=
  if cs = ['i', '8'] then some .i8
  else if cs = ['u', '8'] then some .u8
  else if cs = ['i', '1', '6'] then some .i16
  else if cs = ['u', '1', '6'] then some .u16
  else if cs = ['i', '3', '2'] then some .i32
  else if cs = ['u', '3', '2'] then some .u32
  else if cs = ['i', '6', '4'] then some .i64
  else if cs = ['u', '6', '4'] then some .u64
  else if cs = ['c', '1', '6'] then some .c16
  else none

/-- The value of a digit in base 10 or 16. -/
def digitValue (base : Nat) (c : Char) : Option Nat :=
  let n := c.toNat
  let v :=
    if 48 ≤ n ∧ n ≤ 57 then n - 48
    else if 97 ≤ n ∧ n ≤ 102 then n - 87
    else if 65 ≤ n ∧ n ≤ 70 then n - 55
    else base
  if v < base then some v else none

/-- Digits, most significant first, added onto the value read so far. -/
def readDigits (base : Nat) : List Char → Nat → Option Nat
  | [], acc => some acc
  | c :: cs, acc =>
    match digitValue base c with
    | none => none
    | some v => readDigits base cs (acc * base + v)

/-- An unsigned literal: decimal, or hexadecimal after `0x`; at least one digit (R65). -/
def readUnsigned : List Char → Option Nat
  | [] => none
  | '0' :: 'x' :: [] => none
  | '0' :: 'x' :: c :: cs => readDigits 16 (c :: cs) 0
  | c :: cs => readDigits 10 (c :: cs) 0

/-- An integer literal, optionally negative (R65). -/
def readLiteral : List Char → Option Int
  | '-' :: cs => (readUnsigned cs).map fun n => -(n : Int)
  | cs => (readUnsigned cs).map fun n => (n : Int)

/-- The text before the first `c`, and the text after it when there is one. -/
def cutAt (c : Char) : List Char → List Char × Option (List Char)
  | [] => ([], none)
  | x :: xs =>
    if x = c then ([], some xs)
    else
      let r := cutAt c xs
      (x :: r.1, r.2)

/-- Text without its leading spaces. -/
def dropSpaces : List Char → List Char
  | ' ' :: cs => dropSpaces cs
  | cs => cs

/-- An instruction from its operation, its width and its literals: a literal v is placed on its bus
as `mod(v, 2^64)` (R65). -/
def assembleOperands (op : Operation) (w : Width) (x y : Int) : Instr := instrOf op w (busOf x) (busOf y)

/-- The operand text of an operation: one literal for NOT (B is then 0), two literals otherwise. -/
def readOperands (op : Operation) (cs : List Char) : Option (Int × Int) :=
  let r := cutAt ',' cs
  match op, r.2 with
  | .bnot, none => (readLiteral r.1).map fun x => (x, 0)
  | .bnot, some _ => none
  | _, none => none
  | _, some rest =>
    match readLiteral r.1, readLiteral (dropSpaces rest) with
    | some x, some y => some (x, y)
    | _, _ => none

/-- The instruction a line of assembly text stands for; none where the text is not of the form of
R65. -/
def assemble (text : List Char) : Option Instr :=
  match cutAt ' ' text with
  | (_, none) => none
  | (head, some rest) =>
    match cutAt '.' head with
    | (_, none) => none
    | (name, some suffix) =>
      match operationOfName name, widthOfName suffix with
      | some op, some w =>
        match readOperands op (dropSpaces rest) with
        | some (x, y) => some (assembleOperands op w x y)
        | none => none
      | _, _ => none

end Sys2Proof.Machine
end

