-- ==== Sys2Proof/Safety.lean ====
section
/-! DEFINITION. The terms claims about runs are made in: when the engine may serve, what every step keeps, the
answer to a request as a function of the request alone (10_state.md R23), the responses of a run, and
a run that is final at its first fault response (60_exceptions.md R208). -/

namespace Sys2Proof.Machine

/-- The engine may serve: the table is constructed and is the table of R21 (R31, R223). -/
abbrev State.Ready (s : State) : Prop := s.constructed = true ∧ s.pow2 = pow2Contents

/-- A table that is marked constructed is the table of R21: it is never seen partly built or
changed (R22, R31). A state with reset asserted meets it whatever its table holds. -/
abbrev State.TableIntact (s : State) : Prop := s.constructed = true → s.pow2 = pow2Contents

/-- The response in the next state of an outcome. -/
def responseOf : Host.Outcome State Fault Refusal → Option Response
  | .next t => t.response
  | .fault _ => none
  | .refused _ => none

/-- The answer to a request as a function of its three fields (R23, R34): what an engine fresh from
reset answers. -/
def answer (q : Request) : Option Response := responseOf (serveRequest q State.reset)

/-- The responses of the next `n` steps, in order. -/
def trace : Nat → State → List (Option Response)
  | 0, _ => []
  | n + 1, s =>
    match step s with
    | .next t => t.response :: trace n t
    | .fault _ => []
    | .refused _ => []

/-- A request the engine answers with STATUS = OK: its command selects an instruction whose operands
are well formed (R200). -/
def Request.WellFormed (q : Request) : Bool :=
  match decode q with
  | .error _ => false
  | .ok i => i.wellFormed

/-- How a run of at most `n` steps ends when a fault response is final for a claim about it, as R208
recommends: the cause, or the state reached without one. -/
inductive RunEnd where
  | clean (s : State)
  | raised (e : Cause)
  | stopped
deriving DecidableEq, Repr

/-- Run `n` steps, up to the first fault response (R208). -/
def runToFault : Nat → State → RunEnd
  | 0, s => .clean s
  | n + 1, s =>
    match step s with
    | .next t =>
      match t.response with
      | some (.raised e) => .raised e
      | some (.ok _) => runToFault n t
      | none => runToFault n t
    | .fault _ => .stopped
    | .refused _ => .stopped

end Sys2Proof.Machine
end

