-- ==== Sys2Proof/Certificates/Slice0/Obligations.lean ====
section
/-! DEFINITION. The statements for the provers: what the spec's rules say of decoding, of a step, of reset, of
faults, of the modular-arithmetic core, of the canonical operations and of all 54 instructions.
OBLIGATIONS.json gives each its rules. In a statement of the form `exec i s = .next (s with response
changed)` the record update is the whole frame: the table, its mark and the pending requests stay. -/

open Sys2Proof Sys2Proof.Machine

/-- For every instruction with every operand pattern, decoding its 136-bit request image (CMD lowest,
then A, then B) gives exactly that instruction. The image layout is the model's own (log entry 7),
so the statement is derived. (30_encoding.md R51, 30_encoding.md R54, 30_encoding.md R64,
10_state.md R24) -/
def Obligations.EncodedImageDecodesBack : Prop :=
  ∀ i : Instr, decodeImage (encodeImage i) = .ok i

/-- For every request that decodes, the encoding of its instruction has the same command byte and the
same A; it has the same B unless the operation is NOT, where the encoded B is 0. (30_encoding.md
R54, 30_encoding.md R57, 30_encoding.md R64, 30_encoding.md R65) -/
def Obligations.DecodedRequestEncodesBack : Prop :=
  ∀ (q : Request) (i : Instr), decode q = .ok i →
    (encode i).cmd = q.cmd ∧ (encode i).a = q.a ∧
    (encode i).b = if q.cmd.toNat % 8 = 3 then 0 else q.b

/-- For every request: it is rejected for the reserved bit exactly when CMD[7] is 1, for the operation
exactly when CMD[7] is 0 and OP is 6 or 7, for the width exactly when CMD[7] is 0, OP is below 6 and
WID is above 8; and for every operation and width the CMD value WID * 8 + OP selects that
instruction on the request's buses. (30_encoding.md R54) -/
def Obligations.CommandByteSelectsByItsFields : Prop :=
  (∀ q : Request,
      (decode q = .error .reservedBit ↔ 128 ≤ q.cmd.toNat) ∧
      (decode q = .error .reservedOperation ↔ q.cmd.toNat < 128 ∧ 6 ≤ q.cmd.toNat % 8) ∧
      (decode q = .error .reservedWidth ↔
        q.cmd.toNat < 128 ∧ q.cmd.toNat % 8 < 6 ∧ 9 ≤ q.cmd.toNat / 8 % 16)) ∧
    (∀ (op : Operation) (w : Width) (a b : BitVec 64),
      decode ⟨BitVec.ofNat 8 (w.code * 8 + op.code), a, b⟩ = .ok (instrOf op w a b)) ∧
    (∀ i : Instr, ∃ (op : Operation) (w : Width), i = instrOf op w i.busA i.busB)

/-- Of the 256 CMD values, 202 are rejected: 128 with CMD[7] = 1, and among the 128 with CMD[7] = 0 the
18 with OP 6 or 7 and WID at most 8 and the 56 with WID 9 to 15; a step that serves one of the 202
raises ILLEGAL_CMD. (30_encoding.md R55) -/
def Obligations.IllegalCommandCounts : Prop :=
  ((List.range 256).filter fun c => (decode ⟨BitVec.ofNat 8 c, 0, 0⟩).toOption.isNone).length = 202 ∧
    ((List.range 256).filter fun c => decide (128 ≤ c) && (decode ⟨BitVec.ofNat 8 c, 0, 0⟩).toOption.isNone).length = 128 ∧
    ((List.range 128).filter fun c =>
      decide (6 ≤ c % 8) && decide (c / 8 % 16 ≤ 8) && (decode ⟨BitVec.ofNat 8 c, 0, 0⟩).toOption.isNone).length = 18 ∧
    ((List.range 128).filter fun c =>
      decide (9 ≤ c / 8 % 16) && (decode ⟨BitVec.ofNat 8 c, 0, 0⟩).toOption.isNone).length = 56 ∧
    (∀ (c : Nat) (a b : BitVec 64) (s : State),
      (decode ⟨BitVec.ofNat 8 c, 0, 0⟩).toOption.isNone = true →
        serveRequest ⟨BitVec.ofNat 8 c, a, b⟩ s =
          .next { s with response := some (.raised (.illegalCmd (BitVec.ofNat 8 c))) })

/-- Five command bytes, written bit by bit as 0wwwwooo from the opcode map, decode to band.i8, bor.u16,
bxor.c16, bshl.i32 and bshr.u64 on the buses given with them, and one decodes to bnot.i64, which
takes A only. (30_encoding.md R51, 30_encoding.md R64) -/
def Obligations.WrittenOutWordsDecode : Prop :=
  ∀ a b : BitVec 64,
    decode ⟨0b00000000, a, b⟩ = .ok (.bandI8 a b) ∧ decode ⟨0b00011001, a, b⟩ = .ok (.borU16 a b) ∧
    decode ⟨0b01000010, a, b⟩ = .ok (.bxorC16 a b) ∧ decode ⟨0b00110011, a, b⟩ = .ok (.bnotI64 a) ∧
    decode ⟨0b00100100, a, b⟩ = .ok (.bshlI32 a b) ∧ decode ⟨0b00111101, a, b⟩ = .ok (.bshrU64 a b)

/-- For every operation, width and pair of integer literals, the encoding of the assembled instruction
has CMD = WID * 8 + OP, A equal to the first literal modulo 2^64, and B equal to the second literal
modulo 2^64, or 0 for NOT; a negative amount of a shift stays a shift of the same mnemonic.
(30_encoding.md R65, 30_encoding.md R66) -/
def Obligations.AssembledLiteralsArePlacedOnTheBuses : Prop :=
  ∀ (op : Operation) (w : Width) (x y : Int),
    encode (assembleOperands op w x y) =
      ⟨BitVec.ofNat 8 (w.code * 8 + op.code), BitVec.ofInt 64 x,
        if op = .bnot then 0 else BitVec.ofInt 64 y⟩

/-- When the table is constructed and the oldest pending request decodes to i, a step is exec of i at
the state that keeps only the later requests pending. (30_encoding.md R54, 20_memory.md R42,
70_reset_and_hazards.md R223) -/
def Obligations.StepRunsTheOldestDecodedRequest : Prop :=
  ∀ (s : State) (q : Request) (qs : List Request) (i : Instr),
    s.constructed = true → s.pending = q :: qs → decode q = .ok i →
      step s = exec i { s with pending := qs }

/-- When the table is constructed and the oldest request has CMD[7] = 1, or OP 6 or 7, or WID in [9,
15], the step removes it and answers ILLEGAL_CMD with that CMD; nothing else changes, whatever A and
B hold; and on every other CMD the step does not answer ILLEGAL_CMD. (60_exceptions.md R203) -/
def Obligations.IllegalCommandIsRaised : Prop :=
  ∀ (s : State) (q : Request) (qs : List Request), s.constructed = true → s.pending = q :: qs →
    ((q.cmd.getLsbD 7 = true ∨ 6 ≤ q.cmd.toNat % 8 ∨ 9 ≤ q.cmd.toNat / 8 % 16) →
      step s = .next { s with pending := qs, response := some (.raised (.illegalCmd q.cmd)) }) ∧
    (¬(q.cmd.getLsbD 7 = true ∨ 6 ≤ q.cmd.toNat % 8 ∨ 9 ≤ q.cmd.toNat / 8 % 16) →
      ∀ c, responseOf (step s) ≠ some (.raised (.illegalCmd c)))

/-- When the table is constructed and a request is pending, the step returns a response whose STATUS is
0, 1 or 2, never 3; it is 1 exactly when the command byte selects no instruction, it is 2 exactly
when the command is a legal one of a shift (OP 4 or 5) and the shift argument is not well formed for
its width, and R is present exactly when it is 0. (60_exceptions.md R202) -/
def Obligations.StatusCodesOfServedRequests : Prop :=
  ∀ (s : State) (q : Request) (qs : List Request), s.constructed = true → s.pending = q :: qs →
    ∃ p : Response, step s = .next { s with pending := qs, response := some p } ∧
      p.status ≠ 3 ∧
      (p.status = 1 ↔ CmdByte.wellFormed q.cmd = false) ∧
      (p.status = 2 ↔ CmdByte.wellFormed q.cmd = true ∧ (q.cmd.toNat % 8 = 4 ∨ q.cmd.toNat % 8 = 5) ∧
        ∀ w : Width, widthOfCode (widField q.cmd) = some w → Bus.shiftWellFormed w q.b = false) ∧
      (p.status = 0 ↔ p.result.isSome = true)

/-- When the table is constructed and a request is pending: an illegal command byte is answered
ILLEGAL_CMD whatever B holds; a legal shift command whose B is no sign extension is answered
SHIFT_RANGE carrying B; one whose B is a sign extension with amount -2^31, or at a 64-bit width with
reduced magnitude in [32, 63], is answered SHIFT_RANGE carrying the amount. (60_exceptions.md R206) -/
def Obligations.FaultPriority : Prop :=
  ∀ (s : State) (q : Request) (qs : List Request), s.constructed = true → s.pending = q :: qs →
    (CmdByte.wellFormed q.cmd = false →
      step s = .next { s with pending := qs, response := some (.raised (.illegalCmd q.cmd)) }) ∧
    (CmdByte.wellFormed q.cmd = true → (q.cmd.toNat % 8 = 4 ∨ q.cmd.toNat % 8 = 5) →
      ((q.b.setWidth 32).signExtend 64 ≠ q.b →
        step s = .next { s with pending := qs, response := some (.raised (.shiftRange (.bus q.b))) }) ∧
      ((q.b.setWidth 32).signExtend 64 = q.b →
        (q.b.toInt = -2147483648 ∨
          ((q.cmd.toNat / 8 = 6 ∨ q.cmd.toNat / 8 = 7) ∧ 32 ≤ q.b.toInt.natAbs % 64)) →
        step s =
          .next { s with pending := qs, response := some (.raised (.shiftRange (.amount q.b.toInt))) }))

/-- When the table is constructed and no request is pending, the step changes nothing but that there is
no response afterwards. That the last response is over then is the model's choice (log entry 3).
(70_reset_and_hazards.md R221 (it executes nothing until a request arrives), 10_state.md R27,
10_state.md R29) -/
def Obligations.StepWithNothingPendingIsIdle : Prop :=
  ∀ s : State, s.constructed = true → s.pending = [] → step s = .next { s with response := none }

/-- After reset every Pow2[i] is 2^i, the table is constructed, no request is pending and there is no
response; a step from there changes nothing; and from every state, asserting reset and one step give
exactly that state. That a pending request is dropped by an asserted reset, and that reset lasts one
step, is the model's choice (log entry 5). (70_reset_and_hazards.md R221, 70_reset_and_hazards.md
R220) -/
def Obligations.ResetState : Prop :=
  (∀ i : Fin 32, (State.reset.pow2.get i).toNat = 2 ^ i.val) ∧ State.reset.constructed = true ∧
    State.reset.pending = [] ∧ State.reset.response = none ∧ step State.reset = .next State.reset ∧
    ∀ s : State, step s.assertReset = .next State.reset

/-- From every state whose table is not constructed, whatever the table holds, a step gives a state in
which Pow2[i] = 2^i for every i and the table is marked constructed; the requests presented
meanwhile still wait and none is answered. The state after reset has the table too. That reset lasts
one step is the model's choice (log entry 5). (70_reset_and_hazards.md R220, 70_reset_and_hazards.md
R221, 70_reset_and_hazards.md R223) -/
def Obligations.EndOfResetBuildsTheTable : Prop :=
  (∀ s : State, s.constructed = false →
      ∃ t : State, step s = .next t ∧ (∀ i : Fin 32, (t.pow2.get i).toNat = 2 ^ i.val) ∧
        t.constructed = true ∧ t.pending = s.pending ∧ t.response = none) ∧
    (∀ i : Fin 32, (State.reset.pow2.get i).toNat = 2 ^ i.val) ∧ State.reset.constructed = true

/-- From every state, after asserting reset and presenting a request, the first step serves nothing and
leaves it waiting on a constructed table, and the second step answers it as a fresh engine does.
That reset lasts one step, and that the requests which waited before reset was asserted are dropped,
is the model's choice (log entry 5). (70_reset_and_hazards.md R223, 70_reset_and_hazards.md R226) -/
def Obligations.RequestDuringResetWaits : Prop :=
  ∀ (s : State) (q : Request), ∃ t u : State,
    step ((s.assertReset).present q) = .next t ∧ t.pending = [q] ∧ t.response = none ∧ t.Ready ∧
      step t = .next u ∧ u.pending = [] ∧ u.response = answer q ∧ u.response ≠ none

/-- After any number of steps from reset with no request presented, reading STATUS and reading R both
fault for want of a response. (70_reset_and_hazards.md R222) -/
def Obligations.NoValueBeforeTheFirstResponse : Prop :=
  ∀ n : Nat, ∃ t : State, Sys2Proof.core.run n State.reset = .next t ∧
    t.readStatus = .error .noResponse ∧ t.readResult = .error .noResponse

/-- For every cause and state, raise ends in the same state with the response raised(cause); reading
STATUS then gives 1 for an illegal command and 2 for a shift amount, and reading R faults.
(60_exceptions.md R201) -/
def Obligations.FaultResponseCarriesNoResult : Prop :=
  ∀ s : State,
    (∀ c : CmdByte, ∃ t : State, raise (.illegalCmd c) s = .next t ∧
      t = { s with response := some (.raised (.illegalCmd c)) } ∧
      t.readStatus = .ok 1 ∧ t.readResult = .error .noResult) ∧
    (∀ x : ShiftInfo, ∃ t : State, raise (.shiftRange x) s = .next t ∧
      t = { s with response := some (.raised (.shiftRange x)) } ∧
      t.readStatus = .ok 2 ∧ t.readResult = .error .noResult)

/-- From every state in which a table marked constructed is the table of powers of two, every step that
answers a next state gives such a state, and a step of a constructed engine leaves the table and its
mark exactly as they were. (10_state.md R22, 10_state.md R31, 10_state.md R33) -/
def Obligations.EveryStepKeepsTheTableIntact : Prop :=
  ∀ s t : State, s.TableIntact → step s = .next t →
    t.TableIntact ∧ (s.constructed = true → t.pow2 = s.pow2 ∧ t.constructed = true)

/-- The state after reset meets the invariant that a table marked constructed is the table of powers of
two, and it is ready to serve. (70_reset_and_hazards.md R221, 10_state.md R21) -/
def Obligations.ResetHasTheTableIntact : Prop :=
  State.reset.TableIntact ∧ State.reset.Ready

/-- For every instruction and every state exec answers a next state that differs in the response alone:
a result when the instruction's operands are well formed, a SHIFT_RANGE fault when they are not. All
54 constructors. (60_exceptions.md R200) -/
def Obligations.EveryInstructionEndsInOneResponse : Prop :=
  ∀ (i : Instr) (s : State),
    (i.wellFormed = true → ∃ r : BitVec 64, exec i s = .next { s with response := some (.ok r) }) ∧
    (i.wellFormed = false →
      ∃ x : ShiftInfo, exec i s = .next { s with response := some (.raised (.shiftRange x)) })

/-- For any two states that are ready to serve and whose oldest requests are equal, whatever their other
requests and earlier responses are, the two steps answer the same response and change nothing else
but removing the request. (10_state.md R23) -/
def Obligations.ResponseDependsOnTheRequestAlone : Prop :=
  ∀ (s t : State) (q : Request) (qs rs : List Request), s.Ready → t.Ready →
    s.pending = q :: qs → t.pending = q :: rs →
      ∃ p : Response, step s = .next { s with pending := qs, response := some p } ∧
        step t = .next { t with pending := rs, response := some p }

/-- For every state ready to serve, the responses of as many steps as there are pending requests are, in
order, the answers to those requests, each a function of its own request alone (so no earlier
request, and no earlier fault, changes a later answer, and every order of issue gives each request
the same answer); every request gets an answer, and the run ends with none pending and the table
unchanged. (20_memory.md R42) -/
def Obligations.RunAnswersEveryRequestInOrder : Prop :=
  ∀ s : State, s.Ready →
    trace s.pending.length s = s.pending.map answer ∧
    (∀ q : Request, answer q ≠ none) ∧
    ∃ t : State, Sys2Proof.core.run s.pending.length s = .next t ∧ t.pending = [] ∧ t.Ready

/-- From every state ready to serve: if every pending request is well formed, the run that stops at the
first fault response serves them all without one, and ends with none pending and the table
unchanged; if the pending requests are well-formed ones followed by an ill-formed one, it ends in
exactly the fault that an engine fresh from reset answers that request with. (60_exceptions.md R208,
60_exceptions.md R200, 60_exceptions.md R207) -/
def Obligations.RunIsCleanUntilTheFirstIllFormedRequest : Prop :=
  (∀ s : State, s.Ready → (∀ q ∈ s.pending, Request.WellFormed q = true) →
      ∃ t : State, runToFault s.pending.length s = .clean t ∧ t.pending = [] ∧ t.Ready) ∧
    (∀ (s : State) (good : List Request) (q : Request) (rest : List Request), s.Ready →
      s.pending = good ++ q :: rest → (∀ g ∈ good, Request.WellFormed g = true) →
      Request.WellFormed q = false →
      ∃ e : Cause, runToFault s.pending.length s = .raised e ∧ answer q = some (.raised e))

/-- For all integers a and all nonzero d, fdiv(a, d) is the floor of the rational a / d.
(40_primitives.md R72, 40_primitives.md R70) -/
def Obligations.FloorDivisionIsTheFloorOfTheQuotient : Prop :=
  ∀ a d : Int, d ≠ 0 → fdiv a d = ⌊(a : ℚ) / (d : ℚ)⌋

/-- For all integers a and nonzero d, mod(a, d) is a - d * floor(a / d); for a positive d it lies in [0,
d) and for a negative d in (d, 0]. (40_primitives.md R71) -/
def Obligations.TrueModuloFollowsTheDivisor : Prop :=
  ∀ a d : Int, d ≠ 0 →
    mod a d = a - d * ⌊(a : ℚ) / (d : ℚ)⌋ ∧ (0 < d → 0 ≤ mod a d ∧ mod a d < d) ∧
    (d < 0 → d < mod a d ∧ mod a d ≤ 0)

/-- For every integer v, tobit(v) lies in [-2^31, 2^31 - 1], differs from v by a multiple of 2^32, and
is the signed reading of the low 32 bits of v. (40_primitives.md R73) -/
def Obligations.TobitIsTheCanonicalResidue : Prop :=
  ∀ v : Int, -2147483648 ≤ tobit v ∧ tobit v ≤ 2147483647 ∧ (4294967296 : Int) ∣ v - tobit v ∧
    tobit v = (BitVec.ofInt 32 v).toInt

/-- For every integer v and every i in [0, 31], bit(v, i) through the table of powers of two is
mod(floor(v / 2^i), 2) and is 1 exactly when bit i of v in two's complement is set, 0 otherwise.
(40_primitives.md R74) -/
def Obligations.BitExtractionIsTheTwosComplementBit : Prop :=
  ∀ (v : Int) (i : Fin 32),
    bit pow2Contents v i = mod (fdiv v ((2 ^ i.val : Nat) : Int)) 2 ∧
    bit pow2Contents v i = if (BitVec.ofInt 32 v).getLsbD i.val then 1 else 0

/-- For every width W and integer v, trunc_W(v) is the low N(W) bits of v read as signed or unsigned by
W; it is the identity on [min(W), max(W)]; trunc_i32 is tobit; trunc_u64(-1) is 2^64 - 1.
(40_primitives.md R76) -/
def Obligations.TruncKeepsTheLowBits : Prop :=
  (∀ (w : Width) (v : Int), trunc w v =
      if w.signed then (BitVec.ofInt w.bits v).toInt else ((BitVec.ofInt w.bits v).toNat : Int)) ∧
    (∀ (w : Width) (v : Int), w.minValue ≤ v → v ≤ w.maxValue → trunc w v = v) ∧
    (∀ v : Int, trunc .i32 v = tobit v) ∧ trunc .u64 (-1) = 18446744073709551615

/-- For every bus pattern: at i8, i16, u8, u16, c16 and i32 the canonical word is the operand value; at
u32 it is the operand value less 2^32 when that is at least 2^31; at i64 and u64 it is the signed
reading of bits [31:0], so bits [63:32] are discarded. (40_primitives.md R82) -/
def Obligations.OperandConversionPerWidth : Prop :=
  ∀ x : BitVec 64,
    tobit (operand .i8 x) = (x.setWidth 8).toInt ∧ operand .i8 x = (x.setWidth 8).toInt ∧
    tobit (operand .i16 x) = (x.setWidth 16).toInt ∧ operand .i16 x = (x.setWidth 16).toInt ∧
    tobit (operand .u8 x) = ((x.setWidth 8).toNat : Int) ∧ operand .u8 x = ((x.setWidth 8).toNat : Int) ∧
    tobit (operand .u16 x) = ((x.setWidth 16).toNat : Int) ∧ operand .u16 x = ((x.setWidth 16).toNat : Int) ∧
    tobit (operand .c16 x) = ((x.setWidth 16).toNat : Int) ∧ operand .c16 x = ((x.setWidth 16).toNat : Int) ∧
    tobit (operand .i32 x) = operand .i32 x ∧ operand .i32 x = (x.setWidth 32).toInt ∧
    operand .u32 x = ((x.setWidth 32).toNat : Int) ∧
    tobit (operand .u32 x) =
      (if 2147483648 ≤ operand .u32 x then operand .u32 x - 4294967296 else operand .u32 x) ∧
    tobit (operand .i64 x) = (x.setWidth 32).toInt ∧ tobit (operand .u64 x) = (x.setWidth 32).toInt

/-- For every canonical result r (in [-2^31, 2^31 - 1]): at a width of at most 32 bits, trunc_W keeps
the low N(W) bits of the 32-bit pattern of r; trunc_i64(r) is r; trunc_u64(r) is mod(r, 2^64).
(40_primitives.md R83) -/
def Obligations.ResultConversionPerWidth : Prop :=
  ∀ r : Int, -2147483648 ≤ r → r ≤ 2147483647 → 
    (∀ w : Width, w.bits ≤ 32 →
      BitVec.ofInt w.bits (trunc w r) = (BitVec.ofInt 32 r).setWidth w.bits ∧
      w.minValue ≤ trunc w r ∧ trunc w r ≤ w.maxValue) ∧
    trunc .i64 r = r ∧ trunc .u64 r = mod r 18446744073709551616

/-- For every width of at most 32 bits and every integer x, trunc_W(tobit(x)) is trunc_W(x), and trunc_W
depends on the low N(W) bits of its argument only. (40_primitives.md R85) -/
def Obligations.NarrowTruncIgnoresTobit : Prop :=
  ∀ w : Width, w.bits ≤ 32 →
    (∀ x : Int, trunc w (tobit x) = trunc w x) ∧
    (∀ x y : Int, BitVec.ofInt w.bits x = BitVec.ofInt w.bits y → trunc w x = trunc w y)

/-- For all integers l and r, bAnd(l, r) through the table of powers of two is the signed reading of the
bitwise AND of their 32-bit patterns; bAnd(a, bNot(a)) is 0 for every canonical a; bAnd(12, 10) is
8. (41_and_or.md R91) -/
def Obligations.CanonicalAndIsNativeAnd : Prop :=
  (∀ l r : Int, bAnd pow2Contents l r = (BitVec.ofInt 32 l &&& BitVec.ofInt 32 r).toInt) ∧
    (∀ a : Int, -2147483648 ≤ a → a ≤ 2147483647 → bAnd pow2Contents a (bNot a) = 0) ∧
    bAnd pow2Contents 12 10 = 8

/-- For all integers l and r, bOr(l, r) through the table of powers of two is the signed reading of the
bitwise OR of their 32-bit patterns; bOr(a, bNot(a)) is -1 for every canonical a; bOr(12, 10) is 14.
(41_and_or.md R93) -/
def Obligations.CanonicalOrIsNativeOr : Prop :=
  (∀ l r : Int, bOr pow2Contents l r = (BitVec.ofInt 32 l ||| BitVec.ofInt 32 r).toInt) ∧
    (∀ a : Int, -2147483648 ≤ a → a ≤ 2147483647 → bOr pow2Contents a (bNot a) = -1) ∧
    bOr pow2Contents 12 10 = 14

/-- For all integers l and r, bXor(l, r) through the table of powers of two is the signed reading of the
bitwise XOR of their 32-bit patterns; after i steps the loop holds fdiv(l, 2^i) and fdiv(r, 2^i);
bXor(a, a) is 0; bXor(12, 10) is 6. (42_xor.md R121) -/
def Obligations.CanonicalXorIsNativeXor : Prop :=
  (∀ l r : Int, bXor pow2Contents l r = (BitVec.ofInt 32 l ^^^ BitVec.ofInt 32 r).toInt) ∧
    (∀ (l r : Int) (i : Nat), i ≤ 32 →
      let v := ((List.finRange 32).take i).foldl (xorStep pow2Contents) (XorLoop.mk 0 l r)
      v.left = fdiv l ((2 ^ i : Nat) : Int) ∧ v.right = fdiv r ((2 ^ i : Nat) : Int)) ∧
    (∀ a : Int, bXor pow2Contents a a = 0) ∧ bXor pow2Contents 12 10 = 6

/-- For every canonical v, bNot(v) is -1 - v and is the signed reading of the complement of its 32-bit
pattern; bNot(bNot(v)) is v, bOr(v, bNot(v)) is -1, bAnd(v, bNot(v)) is 0; bNot(0) is -1. (43_not.md
R141) -/
def Obligations.CanonicalNotIsTheComplement : Prop :=
  (∀ v : Int, -2147483648 ≤ v → v ≤ 2147483647 → 
      bNot v = -1 - v ∧ bNot v = (~~~(BitVec.ofInt 32 v)).toInt ∧ bNot (bNot v) = v ∧
      bOr pow2Contents v (bNot v) = -1 ∧ bAnd pow2Contents v (bNot v) = 0) ∧
    bNot 0 = -1

/-- For every integer v and every amount i in [0, 31], shift-left through the table is the native 32-bit
left shift of the pattern of v, and shift-right is the logical (zero-filling) right shift of it;
bShl(1, 31) is -2147483648 and bShr(-8, 1) is 2147483644. (44_shift.md R162, 44_shift.md R163) -/
def Obligations.CanonicalShiftsAreNativeShifts : Prop :=
  (∀ (v : Int) (i : Fin 32),
      shlBy pow2Contents v i = (BitVec.ofInt 32 v <<< i.val).toInt ∧
      shrBy pow2Contents v i = (BitVec.ofInt 32 v >>> i.val).toInt) ∧
    bShl pow2Contents 1 31 = .ok (-2147483648) ∧ bShr pow2Contents (-8) 1 = .ok 2147483644

/-- For every canonical x: bShl(x, 0) and bShr(x, 0) are x; for every amount n in [-2^31 + 1, 2^31 - 1],
bShl(x, n) = bShr(x, -n) and bShr(x, n) = bShl(x, -n), and both give a result; at n = -2^31 both
raise SHIFT_RANGE carrying n. (44_shift.md R160) -/
def Obligations.CanonicalShiftDelegation : Prop :=
  ∀ x : Int, -2147483648 ≤ x → x ≤ 2147483647 → 
    bShl pow2Contents x 0 = .ok x ∧ bShr pow2Contents x 0 = .ok x ∧
    (∀ n : Int, -2147483647 ≤ n → n ≤ 2147483647 →
      bShl pow2Contents x n = bShr pow2Contents x (-n) ∧ bShr pow2Contents x n = bShl pow2Contents x (-n) ∧
      ∃ r : Int, bShl pow2Contents x n = .ok r) ∧
    bShl pow2Contents x (-2147483648) = .error (.shiftRange (.amount (-2147483648))) ∧
    bShr pow2Contents x (-2147483648) = .error (.shiftRange (.amount (-2147483648)))

/-- In every state whose table is the powers of two, for every A and B: the seven AND instructions of at
most 32 bits answer the native AND of the low N bits, sign- or zero-extended to 64 bits by the
width; and the two 64-bit ones the AND of bits [31:0] sign-extended from bit 31; STATUS is OK and
nothing but the response changes. Covers all nine constructors. (41_and_or.md R94, 41_and_or.md R95,
41_and_or.md R96, 41_and_or.md R97, 41_and_or.md R98, 41_and_or.md R99, 41_and_or.md R100,
41_and_or.md R101, 41_and_or.md R102) -/
def Obligations.AndAtEveryWidth : Prop :=
  ∀ (s : State) (a b : BitVec 64), s.pow2 = pow2Contents →
    exec (.bandI8 a b) s = .next { s with response := some (.ok (((a &&& b).setWidth 8).signExtend 64)) } ∧
    exec (.bandU8 a b) s = .next { s with response := some (.ok (((a &&& b).setWidth 8).setWidth 64)) } ∧
    exec (.bandI16 a b) s = .next { s with response := some (.ok (((a &&& b).setWidth 16).signExtend 64)) } ∧
    exec (.bandU16 a b) s = .next { s with response := some (.ok (((a &&& b).setWidth 16).setWidth 64)) } ∧
    exec (.bandI32 a b) s = .next { s with response := some (.ok (((a &&& b).setWidth 32).signExtend 64)) } ∧
    exec (.bandU32 a b) s = .next { s with response := some (.ok (((a &&& b).setWidth 32).setWidth 64)) } ∧
    exec (.bandI64 a b) s = .next { s with response := some (.ok (((a &&& b).setWidth 32).signExtend 64)) } ∧
    exec (.bandU64 a b) s = .next { s with response := some (.ok (((a &&& b).setWidth 32).signExtend 64)) } ∧
    exec (.bandC16 a b) s = .next { s with response := some (.ok (((a &&& b).setWidth 16).setWidth 64)) }

/-- In every state whose table is the powers of two, for every A and B: the seven OR instructions of at
most 32 bits answer the native OR of the low N bits, sign- or zero-extended to 64 bits by the width;
and the two 64-bit ones the OR of bits [31:0] sign-extended from bit 31; STATUS is OK and nothing
but the response changes. Covers all nine constructors. (41_and_or.md R103, 41_and_or.md R104,
41_and_or.md R105, 41_and_or.md R106, 41_and_or.md R107, 41_and_or.md R108, 41_and_or.md R109,
41_and_or.md R110, 41_and_or.md R111) -/
def Obligations.OrAtEveryWidth : Prop :=
  ∀ (s : State) (a b : BitVec 64), s.pow2 = pow2Contents →
    exec (.borI8 a b) s = .next { s with response := some (.ok (((a ||| b).setWidth 8).signExtend 64)) } ∧
    exec (.borU8 a b) s = .next { s with response := some (.ok (((a ||| b).setWidth 8).setWidth 64)) } ∧
    exec (.borI16 a b) s = .next { s with response := some (.ok (((a ||| b).setWidth 16).signExtend 64)) } ∧
    exec (.borU16 a b) s = .next { s with response := some (.ok (((a ||| b).setWidth 16).setWidth 64)) } ∧
    exec (.borI32 a b) s = .next { s with response := some (.ok (((a ||| b).setWidth 32).signExtend 64)) } ∧
    exec (.borU32 a b) s = .next { s with response := some (.ok (((a ||| b).setWidth 32).setWidth 64)) } ∧
    exec (.borI64 a b) s = .next { s with response := some (.ok (((a ||| b).setWidth 32).signExtend 64)) } ∧
    exec (.borU64 a b) s = .next { s with response := some (.ok (((a ||| b).setWidth 32).signExtend 64)) } ∧
    exec (.borC16 a b) s = .next { s with response := some (.ok (((a ||| b).setWidth 16).setWidth 64)) }

/-- In every state whose table is the powers of two, for every A and B: the seven XOR instructions of at
most 32 bits answer the native XOR of the low N bits, sign- or zero-extended to 64 bits by the
width; and the two 64-bit ones the XOR of bits [31:0] sign-extended from bit 31; STATUS is OK and
nothing but the response changes. Covers all nine constructors. (42_xor.md R122, 42_xor.md R123,
42_xor.md R124, 42_xor.md R125, 42_xor.md R126, 42_xor.md R127, 42_xor.md R128, 42_xor.md R129,
42_xor.md R130) -/
def Obligations.XorAtEveryWidth : Prop :=
  ∀ (s : State) (a b : BitVec 64), s.pow2 = pow2Contents →
    exec (.bxorI8 a b) s = .next { s with response := some (.ok (((a ^^^ b).setWidth 8).signExtend 64)) } ∧
    exec (.bxorU8 a b) s = .next { s with response := some (.ok (((a ^^^ b).setWidth 8).setWidth 64)) } ∧
    exec (.bxorI16 a b) s = .next { s with response := some (.ok (((a ^^^ b).setWidth 16).signExtend 64)) } ∧
    exec (.bxorU16 a b) s = .next { s with response := some (.ok (((a ^^^ b).setWidth 16).setWidth 64)) } ∧
    exec (.bxorI32 a b) s = .next { s with response := some (.ok (((a ^^^ b).setWidth 32).signExtend 64)) } ∧
    exec (.bxorU32 a b) s = .next { s with response := some (.ok (((a ^^^ b).setWidth 32).setWidth 64)) } ∧
    exec (.bxorI64 a b) s = .next { s with response := some (.ok (((a ^^^ b).setWidth 32).signExtend 64)) } ∧
    exec (.bxorU64 a b) s = .next { s with response := some (.ok (((a ^^^ b).setWidth 32).signExtend 64)) } ∧
    exec (.bxorC16 a b) s = .next { s with response := some (.ok (((a ^^^ b).setWidth 16).setWidth 64)) }

/-- In every state, for every A: the seven NOT instructions of at most 32 bits answer the native
complement of the low N bits, sign- or zero-extended to 64 bits by the width; the two 64-bit ones
the complement of bits [31:0] sign-extended from bit 31; STATUS is OK and nothing but the response
changes, whatever the table holds. Covers all nine constructors. (43_not.md R142, 43_not.md R143,
43_not.md R144, 43_not.md R145, 43_not.md R146, 43_not.md R147, 43_not.md R148, 43_not.md R149,
43_not.md R150) -/
def Obligations.NotAtEveryWidth : Prop :=
  ∀ (s : State) (a : BitVec 64),
    exec (.bnotI8 a) s = .next { s with response := some (.ok (((~~~a).setWidth 8).signExtend 64)) } ∧
    exec (.bnotU8 a) s = .next { s with response := some (.ok (((~~~a).setWidth 8).setWidth 64)) } ∧
    exec (.bnotI16 a) s = .next { s with response := some (.ok (((~~~a).setWidth 16).signExtend 64)) } ∧
    exec (.bnotU16 a) s = .next { s with response := some (.ok (((~~~a).setWidth 16).setWidth 64)) } ∧
    exec (.bnotI32 a) s = .next { s with response := some (.ok (((~~~a).setWidth 32).signExtend 64)) } ∧
    exec (.bnotU32 a) s = .next { s with response := some (.ok (((~~~a).setWidth 32).setWidth 64)) } ∧
    exec (.bnotI64 a) s = .next { s with response := some (.ok (((~~~a).setWidth 32).signExtend 64)) } ∧
    exec (.bnotU64 a) s = .next { s with response := some (.ok (((~~~a).setWidth 32).signExtend 64)) } ∧
    exec (.bnotC16 a) s = .next { s with response := some (.ok (((~~~a).setWidth 16).setWidth 64)) }

/-- For every command byte with OP = 3, every A and any two B, an engine serves the two requests alike.
(30_encoding.md R57, 43_not.md section 2) -/
def Obligations.NotIgnoresB : Prop :=
  ∀ (c : CmdByte) (a b b' : BitVec 64) (s : State), c.toNat % 8 = 3 →
    serveRequest ⟨c, a, b⟩ s = serveRequest ⟨c, a, b'⟩ s

/-- In every state whose table is the powers of two, for every A and every amount n in [0, 2^31 - 1]: at
most 32 bits, the native N-bit left shift by n mod N, extended to 64 bits by the width; at i64 and
u64, when n mod 64 is at most 31, the left shift of bits [31:0] by n mod 64, sign-extended from bit
31. Nothing but the response changes. Covers all nine constructors. (44_shift.md R170, 44_shift.md
R171, 44_shift.md R172, 44_shift.md R173, 44_shift.md R174, 44_shift.md R175, 44_shift.md R176,
44_shift.md R177, 44_shift.md R178, 44_shift.md R168) -/
def Obligations.ShiftLeftByNonNegativeAmount : Prop :=
  ∀ (s : State) (a : BitVec 64) (n : Nat), s.pow2 = pow2Contents → n < 2147483648 →
    exec (.bshlI8 a (BitVec.ofNat 64 n)) s = .next { s with response := some (.ok (((a <<< (n % 8)).setWidth 8).signExtend 64)) } ∧
    exec (.bshlU8 a (BitVec.ofNat 64 n)) s = .next { s with response := some (.ok (((a <<< (n % 8)).setWidth 8).setWidth 64)) } ∧
    exec (.bshlI16 a (BitVec.ofNat 64 n)) s = .next { s with response := some (.ok (((a <<< (n % 16)).setWidth 16).signExtend 64)) } ∧
    exec (.bshlU16 a (BitVec.ofNat 64 n)) s = .next { s with response := some (.ok (((a <<< (n % 16)).setWidth 16).setWidth 64)) } ∧
    exec (.bshlI32 a (BitVec.ofNat 64 n)) s = .next { s with response := some (.ok (((a <<< (n % 32)).setWidth 32).signExtend 64)) } ∧
    exec (.bshlU32 a (BitVec.ofNat 64 n)) s = .next { s with response := some (.ok (((a <<< (n % 32)).setWidth 32).setWidth 64)) } ∧
    exec (.bshlC16 a (BitVec.ofNat 64 n)) s = .next { s with response := some (.ok (((a <<< (n % 16)).setWidth 16).setWidth 64)) } ∧
    (n % 64 ≤ 31 →
      exec (.bshlI64 a (BitVec.ofNat 64 n)) s = .next { s with response := some (.ok ((a.setWidth 32 <<< (n % 64)).signExtend 64)) } ∧
      exec (.bshlU64 a (BitVec.ofNat 64 n)) s = .next { s with response := some (.ok ((a.setWidth 32 <<< (n % 64)).signExtend 64)) })

/-- In every state whose table is the powers of two, for every A and every amount n in [0, 2^31 - 1]: at
u8, u16, c16 and u32 the logical right shift by n mod N; at i8 and i16 the arithmetic one; at i32
the logical one of the 32-bit pattern, read as signed; at i64 and u64, when n mod 64 is at most 31,
the logical right shift of bits [31:0], sign-extended from bit 31. Nothing but the response changes.
Covers all nine constructors. (44_shift.md R179, 44_shift.md R180, 44_shift.md R181, 44_shift.md
R182, 44_shift.md R183, 44_shift.md R184, 44_shift.md R185, 44_shift.md R186, 44_shift.md R187,
44_shift.md R169) -/
def Obligations.ShiftRightByNonNegativeAmount : Prop :=
  ∀ (s : State) (a : BitVec 64) (n : Nat), s.pow2 = pow2Contents → n < 2147483648 →
    exec (.bshrI8 a (BitVec.ofNat 64 n)) s = .next { s with response := some (.ok (((a.setWidth 8).sshiftRight (n % 8)).signExtend 64)) } ∧
    exec (.bshrU8 a (BitVec.ofNat 64 n)) s = .next { s with response := some (.ok ((a.setWidth 8 >>> (n % 8)).setWidth 64)) } ∧
    exec (.bshrI16 a (BitVec.ofNat 64 n)) s = .next { s with response := some (.ok (((a.setWidth 16).sshiftRight (n % 16)).signExtend 64)) } ∧
    exec (.bshrU16 a (BitVec.ofNat 64 n)) s = .next { s with response := some (.ok ((a.setWidth 16 >>> (n % 16)).setWidth 64)) } ∧
    exec (.bshrI32 a (BitVec.ofNat 64 n)) s = .next { s with response := some (.ok ((a.setWidth 32 >>> (n % 32)).signExtend 64)) } ∧
    exec (.bshrU32 a (BitVec.ofNat 64 n)) s = .next { s with response := some (.ok ((a.setWidth 32 >>> (n % 32)).setWidth 64)) } ∧
    exec (.bshrC16 a (BitVec.ofNat 64 n)) s = .next { s with response := some (.ok ((a.setWidth 16 >>> (n % 16)).setWidth 64)) } ∧
    (n % 64 ≤ 31 →
      exec (.bshrI64 a (BitVec.ofNat 64 n)) s = .next { s with response := some (.ok ((a.setWidth 32 >>> (n % 64)).signExtend 64)) } ∧
      exec (.bshrU64 a (BitVec.ofNat 64 n)) s = .next { s with response := some (.ok ((a.setWidth 32 >>> (n % 64)).signExtend 64)) })

/-- For every width, state, A and magnitude m in [1, 2^31 - 1] (at a 64-bit width with m mod 64 at most
31), SHL by -m is SHR by m and SHR by -m is SHL by m. Covers all eighteen shift constructors.
(44_shift.md R160, 44_shift.md R164) -/
def Obligations.NegativeAmountIsTheOtherShift : Prop :=
  ∀ (w : Width) (s : State) (a : BitVec 64) (m : Nat), 1 ≤ m → m < 2147483648 → (w.bits = 64 → m % 64 ≤ 31) →
    exec (instrOf .bshl w a (BitVec.ofInt 64 (-(m : Int)))) s = exec (instrOf .bshr w a (BitVec.ofNat 64 m)) s ∧
    exec (instrOf .bshr w a (BitVec.ofInt 64 (-(m : Int)))) s = exec (instrOf .bshl w a (BitVec.ofNat 64 m)) s

/-- In every state and for every A and every amount n in [-2^31, 2^31 - 1], bshl.i32 and bshr.i32 answer
what bShl and bShr give on bits [31:0] of A read as signed: the result as a bus pattern, or the
fault they raise. (44_shift.md R164, 44_shift.md R160) -/
def Obligations.I32ShiftsAreTheCanonicalShifts : Prop :=
  ∀ (s : State) (a : BitVec 64) (n : Int), -2147483648 ≤ n → n ≤ 2147483647 →
    exec (.bshlI32 a (BitVec.ofInt 64 n)) s =
      (match bShl s.pow2 (a.setWidth 32).toInt n with
        | .ok r => .next { s with response := some (.ok (BitVec.ofInt 64 r)) }
        | .error e => .next { s with response := some (.raised e) }) ∧
    exec (.bshrI32 a (BitVec.ofInt 64 n)) s =
      (match bShr s.pow2 (a.setWidth 32).toInt n with
        | .ok r => .next { s with response := some (.ok (BitVec.ofInt 64 r)) }
        | .error e => .next { s with response := some (.raised e) })

/-- For every operation, width, A, B and state: the instruction answers SHIFT_RANGE exactly when it is a
shift and B is not the sign extension of B[31:0], or the amount is -2^31, or the width is i64 or u64
and the magnitude of the amount modulo 64 is in [32, 63]. (60_exceptions.md R204) -/
def Obligations.ShiftRangeExactlyInThreeCases : Prop :=
  ∀ (op : Operation) (w : Width) (a b : BitVec 64) (s : State),
    (∃ x : ShiftInfo,
      exec (instrOf op w a b) s = .next { s with response := some (.raised (.shiftRange x)) }) ↔
    (op = .bshl ∨ op = .bshr) ∧
      ((b.setWidth 32).signExtend 64 ≠ b ∨ b.toInt = -2147483648 ∨
        ((w = .i64 ∨ w = .u64) ∧ 32 ≤ b.toInt.natAbs % 64))

/-- For every width, A and state, SHL and SHR by -2^31 answer SHIFT_RANGE carrying that amount and
change nothing else. (44_shift.md R165) -/
def Obligations.MinimumAmountRaisesEverywhere : Prop :=
  ∀ (w : Width) (a : BitVec 64) (s : State),
    exec (instrOf .bshl w a 0xFFFFFFFF80000000) s =
      .next { s with response := some (.raised (.shiftRange (.amount (-2147483648)))) } ∧
    exec (instrOf .bshr w a 0xFFFFFFFF80000000) s =
      .next { s with response := some (.raised (.shiftRange (.amount (-2147483648)))) }

/-- For every amount n in [-2^31 + 1, 2^31 - 1] whose magnitude modulo 64 is in [32, 63], both shifts at
i64 and u64 answer SHIFT_RANGE carrying n and change nothing else. (44_shift.md R166) -/
def Obligations.WideShiftsRefuseReducedAmountsAbove31 : Prop :=
  ∀ (s : State) (a : BitVec 64) (n : Int), -2147483647 ≤ n → n ≤ 2147483647 → 32 ≤ n.natAbs % 64 →
    exec (.bshlI64 a (BitVec.ofInt 64 n)) s = .next { s with response := some (.raised (.shiftRange (.amount n))) } ∧
    exec (.bshrI64 a (BitVec.ofInt 64 n)) s = .next { s with response := some (.raised (.shiftRange (.amount n))) } ∧
    exec (.bshlU64 a (BitVec.ofInt 64 n)) s = .next { s with response := some (.raised (.shiftRange (.amount n))) } ∧
    exec (.bshrU64 a (BitVec.ofInt 64 n)) s = .next { s with response := some (.raised (.shiftRange (.amount n))) }

/-- For every width of at most 32 bits and every amount n in [-2^31 + 1, 2^31 - 1], the amount
processing gives a direction and an index below N(W), and both shift instructions answer a result.
(44_shift.md R167) -/
def Obligations.NarrowShiftsAcceptEveryAmount : Prop :=
  ∀ (w : Width) (n : Int), w.bits ≤ 32 → -2147483647 ≤ n → n ≤ 2147483647 →
    (∀ k : ShiftKind, ∃ (k' : ShiftKind) (i : Fin 32), shamt k w n = .ok (k', i) ∧ i.val < w.bits) ∧
    ∀ (s : State) (a : BitVec 64),
      (∃ r : BitVec 64, exec (instrOf .bshl w a (BitVec.ofInt 64 n)) s = .next { s with response := some (.ok r) }) ∧
      (∃ r : BitVec 64, exec (instrOf .bshr w a (BitVec.ofInt 64 n)) s = .next { s with response := some (.ok r) })

/-- For every table and operands the canonical operations give values in [-2^31, 2^31 - 1]; and whenever
an instruction of width W answers a result, its R is the bus pattern of a value in [min(W), max(W)].
(10_state.md R26) -/
def Obligations.ResultsLieInTheirRanges : Prop :=
  (∀ (t : PowTable) (l r : Int), ∀ v ∈ [bAnd t l r, bOr t l r, bXor t l r, bNot l],
      -2147483648 ≤ v ∧ v ≤ 2147483647) ∧
    (∀ (k : ShiftKind) (t : PowTable) (l n v : Int), canonicalShift k t l n = .ok v →
      -2147483648 ≤ v ∧ v ≤ 2147483647) ∧
    (∀ (op : Operation) (w : Width) (a b r : BitVec 64) (s : State),
      exec (instrOf op w a b) s = .next { s with response := some (.ok r) } →
        ∃ v : Int, w.minValue ≤ v ∧ v ≤ w.maxValue ∧ r = BitVec.ofInt 64 v ∧ (r.toNat : Int) = mod v 18446744073709551616)

/-- For every width W, value r in [min(W), max(W)] and state, respond(r) answers STATUS OK with R =
mod(r, 2^64), whose low N(W) bits are the pattern of r and whose higher bits are copies of bit
N(W)-1 for a signed width and 0 for an unsigned one. (30_encoding.md R62) -/
def Obligations.ResponseExtendsTheResultValue : Prop :=
  ∀ (w : Width) (r : Int) (s : State), w.minValue ≤ r → r ≤ w.maxValue →
    ∃ x : BitVec 64, respond r s = .next { s with response := some (.ok x) } ∧
      (x.toNat : Int) = mod r 18446744073709551616 ∧ x.setWidth w.bits = BitVec.ofInt w.bits r ∧
      x = if w.signed then (x.setWidth w.bits).signExtend 64 else (x.setWidth w.bits).setWidth 64

/-- In every state whose table is the powers of two, the i64 and u64 instructions AND, OR, XOR, NOT and
SHL (by an amount reduced to at most 31) answer the native 64-bit pattern exactly when that pattern
is the sign extension of its own bits [31:0]. (40_primitives.md R84) -/
def Obligations.WideResultsAreNativeExactlyOnSignExtensions : Prop :=
  ∀ (s : State) (a b : BitVec 64) (n : Nat), s.pow2 = pow2Contents → n < 2147483648 → n % 64 ≤ 31 →
    (exec (.bandI64 a b) s = .next { s with response := some (.ok (a &&& b)) } ↔
      ((a &&& b).setWidth 32).signExtend 64 = a &&& b) ∧
    (exec (.bandU64 a b) s = .next { s with response := some (.ok (a &&& b)) } ↔
      ((a &&& b).setWidth 32).signExtend 64 = a &&& b) ∧
    (exec (.borI64 a b) s = .next { s with response := some (.ok (a ||| b)) } ↔
      ((a ||| b).setWidth 32).signExtend 64 = a ||| b) ∧
    (exec (.borU64 a b) s = .next { s with response := some (.ok (a ||| b)) } ↔
      ((a ||| b).setWidth 32).signExtend 64 = a ||| b) ∧
    (exec (.bxorI64 a b) s = .next { s with response := some (.ok (a ^^^ b)) } ↔
      ((a ^^^ b).setWidth 32).signExtend 64 = a ^^^ b) ∧
    (exec (.bxorU64 a b) s = .next { s with response := some (.ok (a ^^^ b)) } ↔
      ((a ^^^ b).setWidth 32).signExtend 64 = a ^^^ b) ∧
    (exec (.bnotI64 a) s = .next { s with response := some (.ok (~~~a)) } ↔
      ((~~~a).setWidth 32).signExtend 64 = ~~~a) ∧
    (exec (.bnotU64 a) s = .next { s with response := some (.ok (~~~a)) } ↔
      ((~~~a).setWidth 32).signExtend 64 = ~~~a) ∧
    (exec (.bshlI64 a (BitVec.ofNat 64 n)) s = .next { s with response := some (.ok (a <<< (n % 64))) } ↔
      ((a <<< (n % 64)).setWidth 32).signExtend 64 = a <<< (n % 64)) ∧
    (exec (.bshlU64 a (BitVec.ofNat 64 n)) s = .next { s with response := some (.ok (a <<< (n % 64))) } ↔
      ((a <<< (n % 64)).setWidth 32).signExtend 64 = a <<< (n % 64))

/-- For every operation, A, B and state, the instruction at c16 gives exactly the outcome of the
instruction at u16. (00_scope.md R8) -/
def Obligations.CharacterWidthBehavesAsU16 : Prop :=
  ∀ (op : Operation) (a b : BitVec 64) (s : State), exec (instrOf op .c16 a b) s = exec (instrOf op .u16 a b) s
end

