-- ==== Sys2Proof/Laws/Ops.lean ====
section
/-! SUPPORT. What each shared operation can do, once: an operation that answers a next state gives
exactly one of the states listed. Cite these instead of unfolding the operation. -/

namespace Sys2Proof.Machine

/-! ## Ending a request -/

theorem respond_next {r : Int} {s t : State} (h : respond r s = .next t) :
    t = s.withResponse (.ok (busOf r)) := by
  rw [respond] at h
  exact (Host.Outcome.next.inj h).symm

theorem raise_next {e : Cause} {s t : State} (h : raise e s = .next t) :
    t = s.withResponse (.raised e) := by
  rw [raise] at h
  exact (Host.Outcome.next.inj h).symm

/-! ## The amount of a shift -/

/-- A shift amount is the signed value of B[31:0] (R57); the only fault is that B does not extend it. -/
theorem shiftAmount_cases (b : Bus) :
    (shiftAmount b = .error (.shiftRange (.bus b)) ∧
      (b.toNat : Int) ≠ mod (sext 32 (slice (b.toNat : Int) 31 0)) Config.busModulus) ∨
    (shiftAmount b = .ok (sext 32 (slice (b.toNat : Int) 31 0)) ∧
      (b.toNat : Int) = mod (sext 32 (slice (b.toNat : Int) 31 0)) Config.busModulus) := by
  by_cases h : (b.toNat : Int) = mod (sext 32 (slice (b.toNat : Int) 31 0)) Config.busModulus
  · exact .inr ⟨if_neg (not_not.mpr h), h⟩
  · exact .inl ⟨if_pos h, h⟩

theorem reduceAmount_cases (k : ShiftKind) (w : Width) (n m : Int) :
    (reduceAmount k w n m = .error (.shiftRange (.amount n)) ∧ 32 ≤ (mod m (w.bits : Int)).toNat) ∨
    (∃ i : Fin 32, reduceAmount k w n m = .ok (k, i) ∧ i.val = (mod m (w.bits : Int)).toNat) := by
  by_cases h : (mod m (w.bits : Int)).toNat < 32
  · exact .inr ⟨⟨_, h⟩, dif_pos h, rfl⟩
  · exact .inl ⟨dif_neg h, Nat.le_of_not_lt h⟩

/-- The sign test of R164 and what follows it. -/
theorem shamt_cases (k : ShiftKind) (w : Width) (n : Int) :
    (n = Config.minAmount ∧ shamt k w n = .error (.shiftRange (.amount n))) ∨
    (n < 0 ∧ n ≠ Config.minAmount ∧ shamt k w n = reduceAmount k.flip w n (-n)) ∨
    (0 ≤ n ∧ shamt k w n = reduceAmount k w n n) := by
  by_cases h : n < 0
  · by_cases m : n = Config.minAmount
    · exact .inl ⟨m, by rw [shamt, if_pos h, if_pos m]⟩
    · exact .inr (.inl ⟨h, m, by rw [shamt, if_pos h, if_neg m]⟩)
  · exact .inr (.inr ⟨not_lt.mp h, by rw [shamt, if_neg h]⟩)

/-- What a canonical shift answers (R160): the fault of -2^31, the other shift, or its own. -/
theorem canonicalShift_cases (k : ShiftKind) (t : PowTable) (v n : Int) :
    (n = Config.minAmount ∧ canonicalShift k t v n = .error (.shiftRange (.amount n))) ∨
    (n < 0 ∧ n ≠ Config.minAmount ∧ canonicalShift k t v n = .ok (shiftBy k.flip t v (reduce32 (-n)))) ∨
    (0 ≤ n ∧ canonicalShift k t v n = .ok (shiftBy k t v (reduce32 n))) := by
  by_cases h : n < 0
  · by_cases m : n = Config.minAmount
    · exact .inl ⟨m, by rw [canonicalShift, if_pos h, if_pos m]⟩
    · exact .inr (.inl ⟨h, m, by rw [canonicalShift, if_pos h, if_neg m]⟩)
  · exact .inr (.inr ⟨not_lt.mp h, by rw [canonicalShift, if_neg h]⟩)

/-! ## The dispatch of an instruction -/

theorem dispatch2_next {f : PowTable → Int → Int → Int} {w : Width} {a b : Bus} {s t : State}
    (h : dispatch2 f w a b s = .next t) :
    t = s.withResponse (.ok (busOf (trunc w (f s.pow2 (tobit (operand w a)) (tobit (operand w b)))))) :=
  respond_next h

theorem dispatch1_next {w : Width} {a : Bus} {s t : State} (h : dispatch1 w a s = .next t) :
    t = s.withResponse (.ok (busOf (trunc w (bNot (tobit (operand w a)))))) :=
  respond_next h

/-- A shift whose amount is usable answers a result; any other answers the fault of its amount. -/
theorem dispatchShift_cases (k : ShiftKind) (w : Width) (a b : Bus) (s : State) :
    (∃ (n : Int) (k' : ShiftKind) (i : Fin 32), shiftAmount b = .ok n ∧ shamt k w n = .ok (k', i) ∧
      dispatchShift k w a b s =
        .next (s.withResponse (.ok (busOf (trunc w (shiftBy k' s.pow2 (tobit (operand w a)) i)))))) ∨
    (∃ e : Cause, (shiftAmount b = .error e ∨ ∃ n, shiftAmount b = .ok n ∧ shamt k w n = .error e) ∧
      dispatchShift k w a b s = .next (s.withResponse (.raised e))) := by
  unfold dispatchShift
  rcases hb : shiftAmount b with e | n
  · exact .inr ⟨e, .inl rfl, rfl⟩
  · rcases hn : shamt k w n with e | ⟨k', i⟩
    · exact .inr ⟨e, .inr ⟨n, rfl, hn⟩, by simp only [hn, raise]⟩
    · exact .inl ⟨n, k', i, rfl, hn, by simp only [hn, respond]⟩

/-! ## The instructions of one operation, over every width -/

theorem exec_band (w : Width) (a b : Bus) (s : State) :
    exec (instrOf .band w a b) s = dispatch2 bAnd w a b s := by cases w <;> rfl

theorem exec_bor (w : Width) (a b : Bus) (s : State) :
    exec (instrOf .bor w a b) s = dispatch2 bOr w a b s := by cases w <;> rfl

theorem exec_bxor (w : Width) (a b : Bus) (s : State) :
    exec (instrOf .bxor w a b) s = dispatch2 bXor w a b s := by cases w <;> rfl

theorem exec_bnot (w : Width) (a b : Bus) (s : State) :
    exec (instrOf .bnot w a b) s = dispatch1 w a s := by cases w <;> rfl

theorem exec_bshl (w : Width) (a b : Bus) (s : State) :
    exec (instrOf .bshl w a b) s = dispatchShift .shl w a b s := by cases w <;> rfl

theorem exec_bshr (w : Width) (a b : Bus) (s : State) :
    exec (instrOf .bshr w a b) s = dispatchShift .shr w a b s := by cases w <;> rfl

/-! ## Serving and the step -/

/-- What an engine does with a request: raise ILLEGAL_CMD, or run the one instruction it decodes to. -/
theorem serveRequest_cases (q : Request) (s : State) :
    (∃ e, decode q = .error e ∧ serveRequest q s = .next (s.withResponse (.raised (.illegalCmd q.cmd)))) ∨
    (∃ i, decode q = .ok i ∧ serveRequest q s = exec i s) := by
  unfold serveRequest
  rcases decode q with e | i
  · exact .inl ⟨e, rfl, rfl⟩
  · exact .inr ⟨i, rfl, rfl⟩

/-- Everything a step can do: finish reset, idle, or serve the oldest request. -/
theorem step_cases (s : State) :
    (s.constructed = false ∧ step s = .next s.build) ∨
    (s.constructed = true ∧ s.pending = [] ∧ step s = .next s.idle) ∨
    (∃ q qs, s.constructed = true ∧ s.pending = q :: qs ∧ step s = serveRequest q (s.accept qs)) := by
  rcases hc : s.constructed with _ | _
  · exact .inl ⟨rfl, by simp [step, engineStep, hc]⟩
  · rcases hp : s.pending with _ | ⟨q, qs⟩
    · exact .inr (.inl ⟨rfl, rfl, by simp [step, engineStep, serveNext, hc, hp]⟩)
    · exact .inr (.inr ⟨q, qs, rfl, rfl, by simp [step, engineStep, serveNext, hc, hp]⟩)

end Sys2Proof.Machine
end

