-- ==== Sys2Proof/Laws/PerInstr.lean ====
section
/-! SUPPORT. A statement about every instruction as syntax, proved constructor by constructor: its
command byte is the one its operation and its width stand for (30_encoding.md R51 to R53). -/

namespace Sys2Proof.Laws.CommandByte

/-- The instruction's command byte passes the three tests of R54, has the value WID * 8 + OP, and its
fields select that operation and that width. -/
def Statement (i : Instr) : Prop :=
  CmdByte.wellFormed i.cmd = true ∧ reservedField i.cmd = 0 ∧
    ∃ (op : Operation) (w : Width), i.cmd.toNat = w.code * 8 + op.code ∧
      operationOfCode (opField i.cmd) = some op ∧ widthOfCode (widField i.cmd) = some w

/-- The statement of an instruction from the same facts about its command byte `c`. -/
theorem of_byte {i : Instr} (c : CmdByte) (op : Operation) (w : Width) (hc : i.cmd = c)
    (h : CmdByte.wellFormed c = true ∧ reservedField c = 0 ∧ c.toNat = w.code * 8 + op.code ∧
      operationOfCode (opField c) = some op ∧ widthOfCode (widField c) = some w) : Statement i := by
  subst hc
  exact ⟨h.1, h.2.1, op, w, h.2.2⟩

theorem bandI8 (a b : Bus) : Statement (.bandI8 a b) :=
  of_byte 0x00 .band .i8 rfl (by decide)
theorem bandU8 (a b : Bus) : Statement (.bandU8 a b) :=
  of_byte 0x08 .band .u8 rfl (by decide)
theorem bandI16 (a b : Bus) : Statement (.bandI16 a b) :=
  of_byte 0x10 .band .i16 rfl (by decide)
theorem bandU16 (a b : Bus) : Statement (.bandU16 a b) :=
  of_byte 0x18 .band .u16 rfl (by decide)
theorem bandI32 (a b : Bus) : Statement (.bandI32 a b) :=
  of_byte 0x20 .band .i32 rfl (by decide)
theorem bandU32 (a b : Bus) : Statement (.bandU32 a b) :=
  of_byte 0x28 .band .u32 rfl (by decide)
theorem bandI64 (a b : Bus) : Statement (.bandI64 a b) :=
  of_byte 0x30 .band .i64 rfl (by decide)
theorem bandU64 (a b : Bus) : Statement (.bandU64 a b) :=
  of_byte 0x38 .band .u64 rfl (by decide)
theorem bandC16 (a b : Bus) : Statement (.bandC16 a b) :=
  of_byte 0x40 .band .c16 rfl (by decide)

theorem borI8 (a b : Bus) : Statement (.borI8 a b) :=
  of_byte 0x01 .bor .i8 rfl (by decide)
theorem borU8 (a b : Bus) : Statement (.borU8 a b) :=
  of_byte 0x09 .bor .u8 rfl (by decide)
theorem borI16 (a b : Bus) : Statement (.borI16 a b) :=
  of_byte 0x11 .bor .i16 rfl (by decide)
theorem borU16 (a b : Bus) : Statement (.borU16 a b) :=
  of_byte 0x19 .bor .u16 rfl (by decide)
theorem borI32 (a b : Bus) : Statement (.borI32 a b) :=
  of_byte 0x21 .bor .i32 rfl (by decide)
theorem borU32 (a b : Bus) : Statement (.borU32 a b) :=
  of_byte 0x29 .bor .u32 rfl (by decide)
theorem borI64 (a b : Bus) : Statement (.borI64 a b) :=
  of_byte 0x31 .bor .i64 rfl (by decide)
theorem borU64 (a b : Bus) : Statement (.borU64 a b) :=
  of_byte 0x39 .bor .u64 rfl (by decide)
theorem borC16 (a b : Bus) : Statement (.borC16 a b) :=
  of_byte 0x41 .bor .c16 rfl (by decide)

theorem bxorI8 (a b : Bus) : Statement (.bxorI8 a b) :=
  of_byte 0x02 .bxor .i8 rfl (by decide)
theorem bxorU8 (a b : Bus) : Statement (.bxorU8 a b) :=
  of_byte 0x0A .bxor .u8 rfl (by decide)
theorem bxorI16 (a b : Bus) : Statement (.bxorI16 a b) :=
  of_byte 0x12 .bxor .i16 rfl (by decide)
theorem bxorU16 (a b : Bus) : Statement (.bxorU16 a b) :=
  of_byte 0x1A .bxor .u16 rfl (by decide)
theorem bxorI32 (a b : Bus) : Statement (.bxorI32 a b) :=
  of_byte 0x22 .bxor .i32 rfl (by decide)
theorem bxorU32 (a b : Bus) : Statement (.bxorU32 a b) :=
  of_byte 0x2A .bxor .u32 rfl (by decide)
theorem bxorI64 (a b : Bus) : Statement (.bxorI64 a b) :=
  of_byte 0x32 .bxor .i64 rfl (by decide)
theorem bxorU64 (a b : Bus) : Statement (.bxorU64 a b) :=
  of_byte 0x3A .bxor .u64 rfl (by decide)
theorem bxorC16 (a b : Bus) : Statement (.bxorC16 a b) :=
  of_byte 0x42 .bxor .c16 rfl (by decide)

theorem bnotI8 (a : Bus) : Statement (.bnotI8 a) :=
  of_byte 0x03 .bnot .i8 rfl (by decide)
theorem bnotU8 (a : Bus) : Statement (.bnotU8 a) :=
  of_byte 0x0B .bnot .u8 rfl (by decide)
theorem bnotI16 (a : Bus) : Statement (.bnotI16 a) :=
  of_byte 0x13 .bnot .i16 rfl (by decide)
theorem bnotU16 (a : Bus) : Statement (.bnotU16 a) :=
  of_byte 0x1B .bnot .u16 rfl (by decide)
theorem bnotI32 (a : Bus) : Statement (.bnotI32 a) :=
  of_byte 0x23 .bnot .i32 rfl (by decide)
theorem bnotU32 (a : Bus) : Statement (.bnotU32 a) :=
  of_byte 0x2B .bnot .u32 rfl (by decide)
theorem bnotI64 (a : Bus) : Statement (.bnotI64 a) :=
  of_byte 0x33 .bnot .i64 rfl (by decide)
theorem bnotU64 (a : Bus) : Statement (.bnotU64 a) :=
  of_byte 0x3B .bnot .u64 rfl (by decide)
theorem bnotC16 (a : Bus) : Statement (.bnotC16 a) :=
  of_byte 0x43 .bnot .c16 rfl (by decide)

theorem bshlI8 (a b : Bus) : Statement (.bshlI8 a b) :=
  of_byte 0x04 .bshl .i8 rfl (by decide)
theorem bshlU8 (a b : Bus) : Statement (.bshlU8 a b) :=
  of_byte 0x0C .bshl .u8 rfl (by decide)
theorem bshlI16 (a b : Bus) : Statement (.bshlI16 a b) :=
  of_byte 0x14 .bshl .i16 rfl (by decide)
theorem bshlU16 (a b : Bus) : Statement (.bshlU16 a b) :=
  of_byte 0x1C .bshl .u16 rfl (by decide)
theorem bshlI32 (a b : Bus) : Statement (.bshlI32 a b) :=
  of_byte 0x24 .bshl .i32 rfl (by decide)
theorem bshlU32 (a b : Bus) : Statement (.bshlU32 a b) :=
  of_byte 0x2C .bshl .u32 rfl (by decide)
theorem bshlI64 (a b : Bus) : Statement (.bshlI64 a b) :=
  of_byte 0x34 .bshl .i64 rfl (by decide)
theorem bshlU64 (a b : Bus) : Statement (.bshlU64 a b) :=
  of_byte 0x3C .bshl .u64 rfl (by decide)
theorem bshlC16 (a b : Bus) : Statement (.bshlC16 a b) :=
  of_byte 0x44 .bshl .c16 rfl (by decide)

theorem bshrI8 (a b : Bus) : Statement (.bshrI8 a b) :=
  of_byte 0x05 .bshr .i8 rfl (by decide)
theorem bshrU8 (a b : Bus) : Statement (.bshrU8 a b) :=
  of_byte 0x0D .bshr .u8 rfl (by decide)
theorem bshrI16 (a b : Bus) : Statement (.bshrI16 a b) :=
  of_byte 0x15 .bshr .i16 rfl (by decide)
theorem bshrU16 (a b : Bus) : Statement (.bshrU16 a b) :=
  of_byte 0x1D .bshr .u16 rfl (by decide)
theorem bshrI32 (a b : Bus) : Statement (.bshrI32 a b) :=
  of_byte 0x25 .bshr .i32 rfl (by decide)
theorem bshrU32 (a b : Bus) : Statement (.bshrU32 a b) :=
  of_byte 0x2D .bshr .u32 rfl (by decide)
theorem bshrI64 (a b : Bus) : Statement (.bshrI64 a b) :=
  of_byte 0x35 .bshr .i64 rfl (by decide)
theorem bshrU64 (a b : Bus) : Statement (.bshrU64 a b) :=
  of_byte 0x3D .bshr .u64 rfl (by decide)
theorem bshrC16 (a b : Bus) : Statement (.bshrC16 a b) :=
  of_byte 0x45 .bshr .c16 rfl (by decide)

end Sys2Proof.Laws.CommandByte
end

