-- ==== Sys2Proof/Laws/Primitives.lean ====
section
/-! SUPPORT. The modular-arithmetic core over Lean's own integer operations, for divisors above 0 (every
divisor the machine uses; 40_primitives.md R70 to R76), the bus pattern of an integer, and the table
after reset. -/

namespace Sys2Proof.Machine

/-! ## Division and modulo (R70, R71) -/

theorem fdiv_of_pos (a : Int) {d : Int} (h : 0 < d) : fdiv a d = a / d := by
  rw [fdiv, Int.fdiv_eq_ediv_of_nonneg a h.le]

theorem mod_of_pos (a : Int) {d : Int} (h : 0 < d) : mod a d = a % d := by
  rw [mod, fdiv_of_pos a h, Int.emod_def]

theorem mod_two_pow (a : Int) (n : Nat) : mod a ((2 ^ n : Nat) : Int) = a % ((2 ^ n : Nat) : Int) :=
  mod_of_pos a (by positivity)

/-! ## Normalisation and narrowing (R73, R75, R76) -/

theorem tobit_eq_ite (v : Int) :
    tobit v = if 2147483648 ≤ v % 4294967296 then v % 4294967296 - 4294967296 else v % 4294967296 := by
  simp only [tobit, mod_of_pos v (show (0 : Int) < Config.modulus by decide)]

theorem trunc_of_unsigned {w : Width} (h : w.signed = false) (v : Int) :
    trunc w v = v % ((2 ^ w.bits : Nat) : Int) := by
  simp only [trunc, h, mod_two_pow, Bool.false_eq_true, if_false]

theorem trunc_of_signed {w : Width} (h : w.signed = true) (v : Int) :
    trunc w v = sext w.bits (v % ((2 ^ w.bits : Nat) : Int)) := by
  simp only [trunc, h, mod_two_pow, if_true]

/-! ## The bus pattern (30_encoding.md R62) -/

theorem busOf_eq_ofInt (v : Int) : busOf v = BitVec.ofInt 64 v := by
  rw [busOf, mod_of_pos v (show (0 : Int) < Config.busModulus by decide)]
  apply BitVec.eq_of_toNat_eq
  rw [BitVec.toNat_ofNat, BitVec.toNat_ofInt]
  simp only [Config.busModulus]
  omega

/-! ## The table (10_state.md R21) -/

theorem readPow2_contents : ∀ i : Fin 32, readPow2 pow2Contents i = 2 ^ i.val := by decide

end Sys2Proof.Machine
end

