-- ==== Sys2Proof/Laws/State.lean ====
section
/-! SUPPORT. What each update of the state does to each field: one lemma per field per update, so that
no later proof unfolds a record update. -/

namespace Sys2Proof.Machine

@[simp] theorem State.withResponse_pow2 (s : State) (p : Response) : (s.withResponse p).pow2 = s.pow2 := rfl
@[simp] theorem State.withResponse_constructed (s : State) (p : Response) :
    (s.withResponse p).constructed = s.constructed := rfl
@[simp] theorem State.withResponse_pending (s : State) (p : Response) :
    (s.withResponse p).pending = s.pending := rfl
@[simp] theorem State.withResponse_response (s : State) (p : Response) :
    (s.withResponse p).response = some p := rfl

@[simp] theorem State.present_pow2 (s : State) (q : Request) : (s.present q).pow2 = s.pow2 := rfl
@[simp] theorem State.present_constructed (s : State) (q : Request) :
    (s.present q).constructed = s.constructed := rfl
@[simp] theorem State.present_pending (s : State) (q : Request) :
    (s.present q).pending = s.pending ++ [q] := rfl
@[simp] theorem State.present_response (s : State) (q : Request) : (s.present q).response = s.response := rfl

@[simp] theorem State.accept_pow2 (s : State) (qs : List Request) : (s.accept qs).pow2 = s.pow2 := rfl
@[simp] theorem State.accept_constructed (s : State) (qs : List Request) :
    (s.accept qs).constructed = s.constructed := rfl
@[simp] theorem State.accept_pending (s : State) (qs : List Request) : (s.accept qs).pending = qs := rfl
@[simp] theorem State.accept_response (s : State) (qs : List Request) :
    (s.accept qs).response = s.response := rfl

@[simp] theorem State.idle_pow2 (s : State) : (s.idle).pow2 = s.pow2 := rfl
@[simp] theorem State.idle_constructed (s : State) : (s.idle).constructed = s.constructed := rfl
@[simp] theorem State.idle_pending (s : State) : (s.idle).pending = s.pending := rfl
@[simp] theorem State.idle_response (s : State) : (s.idle).response = none := rfl

@[simp] theorem State.assertReset_pow2 (s : State) : (s.assertReset).pow2 = s.pow2 := rfl
@[simp] theorem State.assertReset_constructed (s : State) : (s.assertReset).constructed = false := rfl
@[simp] theorem State.assertReset_pending (s : State) : (s.assertReset).pending = [] := rfl
@[simp] theorem State.assertReset_response (s : State) : (s.assertReset).response = none := rfl

@[simp] theorem State.build_pow2 (s : State) : (s.build).pow2 = pow2Contents := rfl
@[simp] theorem State.build_constructed (s : State) : (s.build).constructed = true := rfl
@[simp] theorem State.build_pending (s : State) : (s.build).pending = s.pending := rfl
@[simp] theorem State.build_response (s : State) : (s.build).response = none := rfl

/-! ## The state after reset (70_reset_and_hazards.md R221) -/

@[simp] theorem State.reset_pow2 : State.reset.pow2 = pow2Contents := rfl
@[simp] theorem State.reset_constructed : State.reset.constructed = true := rfl
@[simp] theorem State.reset_pending : State.reset.pending = [] := rfl
@[simp] theorem State.reset_response : State.reset.response = none := rfl

/-! ## The response fields (10_state.md R25) -/

@[simp] theorem Response.ok_status (r : Bus) : (Response.ok r).status = 0 := rfl
@[simp] theorem Response.raised_status (e : Cause) : (Response.raised e).status = e.status := rfl
@[simp] theorem Response.ok_result (r : Bus) : (Response.ok r).result = some r := rfl
@[simp] theorem Response.raised_result (e : Cause) : (Response.raised e).result = none := rfl
@[simp] theorem Cause.illegalCmd_status (c : CmdByte) : (Cause.illegalCmd c).status = 1 := rfl
@[simp] theorem Cause.shiftRange_status (x : ShiftInfo) : (Cause.shiftRange x).status = 2 := rfl

/-- A constructed engine already: placing a request only puts it before those that wait. -/
theorem State.placeNext_constructed (s : State) (q : Request) (h : s.constructed = true) :
    s.placeNext q = s.accept (q :: s.pending) := by
  simp only [State.placeNext, h, if_true]

/-- Reset asserted: placing a request finishes reset first. -/
theorem State.placeNext_not_constructed (s : State) (q : Request) (h : s.constructed = false) :
    s.placeNext q = s.build.accept (q :: s.pending) := by
  simp [State.placeNext, h]

end Sys2Proof.Machine
end

