-- ==== Sys2Proof/Tests/Slice0.lean ====
section
/-! SUPPORT. Tests. Decoding of every instruction's word, written out bit by bit from the opcode map
(30_encoding.md R51 to R53, R64); one step of every instruction on the example its rule gives; faults;
the ports and reset; assembly text; and, at the end, witnesses that the hypotheses of each obligation
can be met. Every expected value is the spec's: the rule or the vector of 95_test_vectors.md is named. -/

namespace Sys2Proof.Tests

open Sys2Proof.Machine

/-- A request on two buses that differ in every byte. -/
abbrev sample (c : CmdByte) : Request := ⟨c, 0x0123456789ABCDEF, 0xFEDCBA9876543210⟩

/-- The response an instruction gives on the state after reset. -/
abbrev ran (i : Instr) : Option Response := responseOf (exec i State.reset)

/-- The state after reset with one request pending. -/
abbrev asked (q : Request) : State := State.reset.present q

/-- The response the next step of such a state gives. -/
abbrev served (q : Request) : Option Response := responseOf (step (asked q))

/-! ## Decoding: 0 wwww ooo (30_encoding.md R51, R52, R53) -/

theorem test_decode_band :
    decode (sample 0b00000000) = .ok (.bandI8 0x0123456789ABCDEF 0xFEDCBA9876543210) ∧
    decode (sample 0b00001000) = .ok (.bandU8 0x0123456789ABCDEF 0xFEDCBA9876543210) ∧
    decode (sample 0b00010000) = .ok (.bandI16 0x0123456789ABCDEF 0xFEDCBA9876543210) ∧
    decode (sample 0b00011000) = .ok (.bandU16 0x0123456789ABCDEF 0xFEDCBA9876543210) ∧
    decode (sample 0b00100000) = .ok (.bandI32 0x0123456789ABCDEF 0xFEDCBA9876543210) ∧
    decode (sample 0b00101000) = .ok (.bandU32 0x0123456789ABCDEF 0xFEDCBA9876543210) ∧
    decode (sample 0b00110000) = .ok (.bandI64 0x0123456789ABCDEF 0xFEDCBA9876543210) ∧
    decode (sample 0b00111000) = .ok (.bandU64 0x0123456789ABCDEF 0xFEDCBA9876543210) ∧
    decode (sample 0b01000000) = .ok (.bandC16 0x0123456789ABCDEF 0xFEDCBA9876543210) := by decide

theorem test_decode_bor :
    decode (sample 0b00000001) = .ok (.borI8 0x0123456789ABCDEF 0xFEDCBA9876543210) ∧
    decode (sample 0b00001001) = .ok (.borU8 0x0123456789ABCDEF 0xFEDCBA9876543210) ∧
    decode (sample 0b00010001) = .ok (.borI16 0x0123456789ABCDEF 0xFEDCBA9876543210) ∧
    decode (sample 0b00011001) = .ok (.borU16 0x0123456789ABCDEF 0xFEDCBA9876543210) ∧
    decode (sample 0b00100001) = .ok (.borI32 0x0123456789ABCDEF 0xFEDCBA9876543210) ∧
    decode (sample 0b00101001) = .ok (.borU32 0x0123456789ABCDEF 0xFEDCBA9876543210) ∧
    decode (sample 0b00110001) = .ok (.borI64 0x0123456789ABCDEF 0xFEDCBA9876543210) ∧
    decode (sample 0b00111001) = .ok (.borU64 0x0123456789ABCDEF 0xFEDCBA9876543210) ∧
    decode (sample 0b01000001) = .ok (.borC16 0x0123456789ABCDEF 0xFEDCBA9876543210) := by decide

theorem test_decode_bxor :
    decode (sample 0b00000010) = .ok (.bxorI8 0x0123456789ABCDEF 0xFEDCBA9876543210) ∧
    decode (sample 0b00001010) = .ok (.bxorU8 0x0123456789ABCDEF 0xFEDCBA9876543210) ∧
    decode (sample 0b00010010) = .ok (.bxorI16 0x0123456789ABCDEF 0xFEDCBA9876543210) ∧
    decode (sample 0b00011010) = .ok (.bxorU16 0x0123456789ABCDEF 0xFEDCBA9876543210) ∧
    decode (sample 0b00100010) = .ok (.bxorI32 0x0123456789ABCDEF 0xFEDCBA9876543210) ∧
    decode (sample 0b00101010) = .ok (.bxorU32 0x0123456789ABCDEF 0xFEDCBA9876543210) ∧
    decode (sample 0b00110010) = .ok (.bxorI64 0x0123456789ABCDEF 0xFEDCBA9876543210) ∧
    decode (sample 0b00111010) = .ok (.bxorU64 0x0123456789ABCDEF 0xFEDCBA9876543210) ∧
    decode (sample 0b01000010) = .ok (.bxorC16 0x0123456789ABCDEF 0xFEDCBA9876543210) := by decide

theorem test_decode_bnot :
    decode (sample 0b00000011) = .ok (.bnotI8 0x0123456789ABCDEF) ∧
    decode (sample 0b00001011) = .ok (.bnotU8 0x0123456789ABCDEF) ∧
    decode (sample 0b00010011) = .ok (.bnotI16 0x0123456789ABCDEF) ∧
    decode (sample 0b00011011) = .ok (.bnotU16 0x0123456789ABCDEF) ∧
    decode (sample 0b00100011) = .ok (.bnotI32 0x0123456789ABCDEF) ∧
    decode (sample 0b00101011) = .ok (.bnotU32 0x0123456789ABCDEF) ∧
    decode (sample 0b00110011) = .ok (.bnotI64 0x0123456789ABCDEF) ∧
    decode (sample 0b00111011) = .ok (.bnotU64 0x0123456789ABCDEF) ∧
    decode (sample 0b01000011) = .ok (.bnotC16 0x0123456789ABCDEF) := by decide

theorem test_decode_bshl :
    decode (sample 0b00000100) = .ok (.bshlI8 0x0123456789ABCDEF 0xFEDCBA9876543210) ∧
    decode (sample 0b00001100) = .ok (.bshlU8 0x0123456789ABCDEF 0xFEDCBA9876543210) ∧
    decode (sample 0b00010100) = .ok (.bshlI16 0x0123456789ABCDEF 0xFEDCBA9876543210) ∧
    decode (sample 0b00011100) = .ok (.bshlU16 0x0123456789ABCDEF 0xFEDCBA9876543210) ∧
    decode (sample 0b00100100) = .ok (.bshlI32 0x0123456789ABCDEF 0xFEDCBA9876543210) ∧
    decode (sample 0b00101100) = .ok (.bshlU32 0x0123456789ABCDEF 0xFEDCBA9876543210) ∧
    decode (sample 0b00110100) = .ok (.bshlI64 0x0123456789ABCDEF 0xFEDCBA9876543210) ∧
    decode (sample 0b00111100) = .ok (.bshlU64 0x0123456789ABCDEF 0xFEDCBA9876543210) ∧
    decode (sample 0b01000100) = .ok (.bshlC16 0x0123456789ABCDEF 0xFEDCBA9876543210) := by decide

theorem test_decode_bshr :
    decode (sample 0b00000101) = .ok (.bshrI8 0x0123456789ABCDEF 0xFEDCBA9876543210) ∧
    decode (sample 0b00001101) = .ok (.bshrU8 0x0123456789ABCDEF 0xFEDCBA9876543210) ∧
    decode (sample 0b00010101) = .ok (.bshrI16 0x0123456789ABCDEF 0xFEDCBA9876543210) ∧
    decode (sample 0b00011101) = .ok (.bshrU16 0x0123456789ABCDEF 0xFEDCBA9876543210) ∧
    decode (sample 0b00100101) = .ok (.bshrI32 0x0123456789ABCDEF 0xFEDCBA9876543210) ∧
    decode (sample 0b00101101) = .ok (.bshrU32 0x0123456789ABCDEF 0xFEDCBA9876543210) ∧
    decode (sample 0b00110101) = .ok (.bshrI64 0x0123456789ABCDEF 0xFEDCBA9876543210) ∧
    decode (sample 0b00111101) = .ok (.bshrU64 0x0123456789ABCDEF 0xFEDCBA9876543210) ∧
    decode (sample 0b01000101) = .ok (.bshrC16 0x0123456789ABCDEF 0xFEDCBA9876543210) := by decide

/-- The table's own numbering: CMD in bits 7..0, the operand buses zero. -/
theorem test_table_word :
    decodeTableWord 8 0b00000000 = some (.bandI8 0 0) ∧ decodeTableWord 8 0b01000011 = some (.bnotC16 0) ∧
    decodeTableWord 8 0b00100100 = some (.bshlI32 0 0) ∧ decodeTableWord 8 0b10000000 = none := by decide

/-- The three tests of R54, in its order (R54). -/
theorem test_decode_rejects :
    decode (sample 0b10000000) = .error .reservedBit ∧ decode (sample 0b11111111) = .error .reservedBit ∧
    decode (sample 0b00000110) = .error .reservedOperation ∧
    decode (sample 0b01111111) = .error .reservedOperation ∧
    decode (sample 0b01001000) = .error .reservedWidth := by decide

/-- A and B lie above CMD in the image of a request. -/
theorem test_image :
    encodeImage (.bshlI32 0x0123456789ABCDEF 0xFEDCBA9876543210) =
      0xFEDCBA98765432100123456789ABCDEF24 := by decide

/-! ## What is ill-formed, refused by each check (60_exceptions.md R203, R204) -/

theorem test_illFormed_reservedBit : CmdByte.reservedClear 0x80 = false := by decide
theorem test_illFormed_operation : CmdByte.operationDefined 0x06 = false := by decide
theorem test_illFormed_width : CmdByte.widthDefined 0x48 = false := by decide
theorem test_illFormed_command :
    CmdByte.wellFormed 0x80 = false ∧ CmdByte.wellFormed 0x06 = false ∧ CmdByte.wellFormed 0x48 = false ∧
    CmdByte.wellFormed 0x45 = true := by decide
theorem test_illFormed_extension : Bus.isExtension 0x80000000 = false := by decide
theorem test_illFormed_minimum : Bus.notMinimum 0xFFFFFFFF80000000 = false := by decide
theorem test_illFormed_magnitude :
    Bus.magnitudeFits .i64 32 = false ∧ Bus.magnitudeFits .u64 63 = false ∧
    Bus.magnitudeFits .u64 64 = true ∧ Bus.magnitudeFits .i32 32 = true := by decide
theorem test_illFormed_instruction :
    (Instr.bshlI32 1 0x80000000).wellFormed = false ∧ (Instr.bshrU8 1 0xFFFFFFFF80000000).wellFormed = false ∧
    (Instr.bshrU64 1 32).wellFormed = false ∧ (Instr.bshrU64 1 64).wellFormed = true := by decide
theorem test_illFormed_request :
    Request.WellFormed ⟨0x06, 12, 10⟩ = false ∧ Request.WellFormed ⟨0x34, 1, 40⟩ = false ∧
    Request.WellFormed ⟨0x34, 1, 31⟩ = true := by decide

/-! ## Every instruction on the example of its own rule -/

/-- The examples of 41_and_or.md R94 to R102, in their order. -/
theorem test_example_band :
    ran (.bandI8 0xFFFFFFFFFFFFFF9C 0x000000000000005A) = some (.ok 0x0000000000000018) ∧
    ran (.bandU8 0x00000000000000CC 0x00000000000000AA) = some (.ok 0x0000000000000088) ∧
    ran (.bandI16 0xFFFFFFFFFFFFCFC7 0x0000000000000FF0) = some (.ok 0x0000000000000FC0) ∧
    ran (.bandU16 0x000000000000F00F 0x0000000000000FF0) = some (.ok 0x0000000000000000) ∧
    ran (.bandI32 0x000000000000000C 0x000000000000000A) = some (.ok 0x0000000000000008) ∧
    ran (.bandU32 0x00000000F0F0F0F0 0x00000000FF00FF00) = some (.ok 0x00000000F000F000) ∧
    ran (.bandI64 0x123456789ABCDEF0 0xFFFFFFFFFFFFFFFF) = some (.ok 0xFFFFFFFF9ABCDEF0) ∧
    ran (.bandU64 0xFFFFFFFFFFFFFFFF 0x00000000FFFFFFFF) = some (.ok 0xFFFFFFFFFFFFFFFF) ∧
    ran (.bandC16 0x0000000000000041 0x0000000000000020) = some (.ok 0x0000000000000000) := by
  decide +kernel

/-- The examples of 41_and_or.md R103 to R111, in their order. -/
theorem test_example_bor :
    ran (.borI8 0xFFFFFFFFFFFFFF9C 0x000000000000005A) = some (.ok 0xFFFFFFFFFFFFFFDE) ∧
    ran (.borU8 0x00000000000000CC 0x00000000000000AA) = some (.ok 0x00000000000000EE) ∧
    ran (.borI16 0xFFFFFFFFFFFFCFC7 0x0000000000000FF0) = some (.ok 0xFFFFFFFFFFFFCFF7) ∧
    ran (.borU16 0x000000000000F00F 0x0000000000000FF0) = some (.ok 0x000000000000FFFF) ∧
    ran (.borI32 0x000000000000000C 0x000000000000000A) = some (.ok 0x000000000000000E) ∧
    ran (.borU32 0x00000000F0F0F0F0 0x00000000FF00FF00) = some (.ok 0x00000000FFF0FFF0) ∧
    ran (.borI64 0x123456789ABCDEF0 0xFFFFFFFFFFFFFFFF) = some (.ok 0xFFFFFFFFFFFFFFFF) ∧
    ran (.borU64 0xFFFFFFFFFFFFFFFF 0x00000000FFFFFFFF) = some (.ok 0xFFFFFFFFFFFFFFFF) ∧
    ran (.borC16 0x0000000000000041 0x0000000000000020) = some (.ok 0x0000000000000061) := by
  decide +kernel

/-- The examples of 42_xor.md R122 to R130, in their order. -/
theorem test_example_bxor :
    ran (.bxorI8 0xFFFFFFFFFFFFFF9C 0x000000000000005A) = some (.ok 0xFFFFFFFFFFFFFFC6) ∧
    ran (.bxorU8 0x00000000000000CC 0x00000000000000AA) = some (.ok 0x0000000000000066) ∧
    ran (.bxorI16 0xFFFFFFFFFFFFCFC7 0x0000000000000FF0) = some (.ok 0xFFFFFFFFFFFFC037) ∧
    ran (.bxorU16 0x000000000000F00F 0x0000000000000FF0) = some (.ok 0x000000000000FFFF) ∧
    ran (.bxorI32 0x000000000000000C 0x000000000000000A) = some (.ok 0x0000000000000006) ∧
    ran (.bxorU32 0x00000000F0F0F0F0 0x00000000FF00FF00) = some (.ok 0x000000000FF00FF0) ∧
    ran (.bxorI64 0x123456789ABCDEF0 0xFFFFFFFFFFFFFFFF) = some (.ok 0x000000006543210F) ∧
    ran (.bxorU64 0xFFFFFFFFFFFFFFFF 0x00000000FFFFFFFF) = some (.ok 0x0000000000000000) ∧
    ran (.bxorC16 0x0000000000000041 0x0000000000000020) = some (.ok 0x0000000000000061) := by
  decide +kernel

/-- The examples of 43_not.md R142 to R150, in their order. -/
theorem test_example_bnot :
    ran (.bnotI8 0x0000000000000005) = some (.ok 0xFFFFFFFFFFFFFFFA) ∧
    ran (.bnotU8 0x0000000000000005) = some (.ok 0x00000000000000FA) ∧
    ran (.bnotI16 0xFFFFFFFFFFFF8000) = some (.ok 0x0000000000007FFF) ∧
    ran (.bnotU16 0x0000000000000000) = some (.ok 0x000000000000FFFF) ∧
    ran (.bnotI32 0x0000000000000000) = some (.ok 0xFFFFFFFFFFFFFFFF) ∧
    ran (.bnotU32 0x0000000000000000) = some (.ok 0x00000000FFFFFFFF) ∧
    ran (.bnotI64 0x0000000100000000) = some (.ok 0xFFFFFFFFFFFFFFFF) ∧
    ran (.bnotU64 0x0000000000000000) = some (.ok 0xFFFFFFFFFFFFFFFF) ∧
    ran (.bnotC16 0x0000000000000041) = some (.ok 0x000000000000FFBE) := by
  decide +kernel

/-- The examples of 44_shift.md R170 to R178, in their order. -/
theorem test_example_bshl :
    ran (.bshlI8 0x0000000000000001 0x0000000000000007) = some (.ok 0xFFFFFFFFFFFFFF80) ∧
    ran (.bshlU8 0x0000000000000081 0x0000000000000001) = some (.ok 0x0000000000000002) ∧
    ran (.bshlI16 0x0000000000000003 0x000000000000000E) = some (.ok 0xFFFFFFFFFFFFC000) ∧
    ran (.bshlU16 0x000000000000FFFF 0x0000000000000004) = some (.ok 0x000000000000FFF0) ∧
    ran (.bshlI32 0x0000000000000001 0x000000000000001F) = some (.ok 0xFFFFFFFF80000000) ∧
    ran (.bshlU32 0x0000000000000001 0x0000000000000020) = some (.ok 0x0000000000000001) ∧
    ran (.bshlI64 0x0000000000000001 0x000000000000001F) = some (.ok 0xFFFFFFFF80000000) ∧
    ran (.bshlU64 0x00000000FFFFFFFF 0x0000000000000001) = some (.ok 0xFFFFFFFFFFFFFFFE) ∧
    ran (.bshlC16 0x0000000000000041 0xFFFFFFFFFFFFFFFF) = some (.ok 0x0000000000000020) := by
  decide +kernel

/-- The examples of 44_shift.md R179 to R187, in their order. -/
theorem test_example_bshr :
    ran (.bshrI8 0xFFFFFFFFFFFFFF80 0x0000000000000007) = some (.ok 0xFFFFFFFFFFFFFFFF) ∧
    ran (.bshrU8 0x00000000000000C8 0x0000000000000001) = some (.ok 0x0000000000000064) ∧
    ran (.bshrI16 0xFFFFFFFFFFFFFFFE 0x0000000000000001) = some (.ok 0xFFFFFFFFFFFFFFFF) ∧
    ran (.bshrU16 0x0000000000008000 0x000000000000000F) = some (.ok 0x0000000000000001) ∧
    ran (.bshrI32 0xFFFFFFFFFFFFFFF8 0x0000000000000001) = some (.ok 0x000000007FFFFFFC) ∧
    ran (.bshrU32 0x00000000FFFFFFF8 0x0000000000000001) = some (.ok 0x000000007FFFFFFC) ∧
    ran (.bshrI64 0xFFFFFFFFFFFFFFF8 0x0000000000000001) = some (.ok 0x000000007FFFFFFC) ∧
    ran (.bshrU64 0xFFFFFFFFFFFFFFF8 0x0000000000000001) = some (.ok 0x000000007FFFFFFC) ∧
    ran (.bshrC16 0x0000000000000041 0x0000000000000003) = some (.ok 0x0000000000000008) := by
  decide +kernel

/-! ## The XOR loop, step by step (95_test_vectors.md L1.4) -/

theorem test_xor_loop :
    xorStep pow2Contents ⟨0, 12, 10⟩ 0 = ⟨0, 6, 5⟩ ∧ xorStep pow2Contents ⟨0, 6, 5⟩ 1 = ⟨2, 3, 2⟩ ∧
    xorStep pow2Contents ⟨2, 3, 2⟩ 2 = ⟨6, 1, 1⟩ ∧ xorStep pow2Contents ⟨6, 1, 1⟩ 3 = ⟨6, 0, 0⟩ := by decide
theorem test_xor_loop_negative :
    xorStep pow2Contents ⟨0, -1, -1⟩ 31 = ⟨0, -1, -1⟩ ∧ xorStep pow2Contents ⟨0, -3, 5⟩ 0 = ⟨0, -2, 2⟩ := by
  decide

/-! ## The values of 40_primitives.md R81 -/

theorem test_primitives :
    mod 7 2 = 1 ∧ mod (-7) 2 = 1 ∧ mod (-8) 2 = 0 ∧ mod (-1) 4294967296 = 4294967295 ∧
    mod (-2147483648) 4294967296 = 2147483648 ∧ mod 4294967296 4294967296 = 0 ∧ fdiv (-7) 2 = -4 ∧
    fdiv (-1) 2147483648 = -1 ∧ mod 7 (-2) = -1 ∧ mod (-7) (-2) = -1 := by decide

/-! ## Faults (95_test_vectors.md L2.7, V595 to V605; the info of 60_exceptions.md R201) -/

theorem test_fault_illegal_before_shift :
    served ⟨0xA4, 1, 0x0000000100000000⟩ = some (.raised (.illegalCmd 0xA4)) := by decide +kernel
theorem test_fault_case_a :
    served ⟨0x24, 1, 0x0000000080000000⟩ = some (.raised (.shiftRange (.bus 0x0000000080000000))) := by
  decide +kernel
theorem test_fault_case_b :
    served ⟨0x0D, 1, 0xFFFFFFFF80000000⟩ = some (.raised (.shiftRange (.amount (-2147483648)))) := by
  decide +kernel
theorem test_fault_case_c :
    served ⟨0x34, 1, 0xFFFFFFFFFFFFFFD8⟩ = some (.raised (.shiftRange (.amount (-40)))) := by decide +kernel
theorem test_no_fault_64 : served ⟨0x3D, 1, 64⟩ = some (.ok 1) := by decide +kernel
theorem test_no_fault_95 : served ⟨0x34, 1, 95⟩ = some (.ok 0xFFFFFFFF80000000) := by decide +kernel

/-! ## The ports and reset -/

/-- After a fault the next request is served as if it had not happened (95_test_vectors.md L3.4). -/
theorem test_fault_leaves_nothing :
    trace 2 ((asked ⟨0x34, 1, 40⟩).present ⟨0x34, 1, 31⟩) =
      [some (.raised (.shiftRange (.amount 40))), some (.ok 0xFFFFFFFF80000000)] := by decide +kernel
/-- STATUS and R of the three kinds of response, and of none (10_state.md R25; R222). -/
theorem test_response_fields :
    (State.reset.withResponse (.ok 7)).readStatus = .ok 0 ∧
    (State.reset.withResponse (.ok 7)).readResult = .ok 7 ∧
    (State.reset.withResponse (.raised (.illegalCmd 0xFF))).readStatus = .ok 1 ∧
    (State.reset.withResponse (.raised (.illegalCmd 0xFF))).readResult = .error .noResult ∧
    (State.reset.withResponse (.raised (.shiftRange (.amount 40)))).readStatus = .ok 2 ∧
    State.reset.readStatus = .error .noResponse ∧ State.reset.readResult = .error .noResponse := ⟨rfl, rfl, rfl, rfl, rfl, rfl, rfl⟩
/-- Nothing is served before the table is built (R223). -/
theorem test_reset_serves_nothing :
    trace 2 ((State.reset.assertReset).present ⟨0x23, 0, 0⟩) =
      [none, some (.ok 0xFFFFFFFFFFFFFFFF)] := by decide +kernel
theorem test_fetch_word :
    responseOf (step (State.reset.withFetchWord 8 0x23)) = some (.ok 0xFFFFFFFFFFFFFFFF) := by decide +kernel

/-! ## Assembly text (30_encoding.md R65) -/

theorem test_assemble_hex :
    assemble "bshl.i32 1, 0x80000000".toList = some (.bshlI32 1 0x0000000080000000) := by decide +kernel
theorem test_assemble_negative :
    assemble "bshr.i32 -8, -1".toList = some (.bshrI32 0xFFFFFFFFFFFFFFF8 0xFFFFFFFFFFFFFFFF) := by
  decide +kernel
theorem test_assemble_not : assemble "bnot.c16 65".toList = some (.bnotC16 0x41) := by decide +kernel
theorem test_assemble_refuses :
    assemble "bnot.c16 65, 1".toList = none ∧ assemble "band.i32 12".toList = none ∧
    assemble "badd.i32 1, 2".toList = none := by decide +kernel

/-! ## Witnesses: the hypotheses of each obligation, met together, for each clause -/

/-- DecodedRequestEncodesBack: a two-operand request and a NOT with a B that is ignored. -/
theorem test_witness_DecodedRequestEncodesBack :
    decode ⟨0x24, 1, 31⟩ = .ok (.bshlI32 1 31) ∧ decode ⟨0x43, 65, 9⟩ = .ok (.bnotC16 65) := by decide

/-- IllegalCommandCounts: an illegal byte for its last clause. -/
theorem test_witness_IllegalCommandCounts :
    (decode ⟨BitVec.ofNat 8 0x46, 0, 0⟩).toOption.isNone = true := by decide

/-- StepRunsTheOldestDecodedRequest. -/
theorem test_witness_StepRunsTheOldestDecodedRequest :
    (asked ⟨0x24, 1, 31⟩).constructed = true ∧ (asked ⟨0x24, 1, 31⟩).pending = ⟨0x24, 1, 31⟩ :: [] ∧
    decode ⟨0x24, 1, 31⟩ = .ok (.bshlI32 1 31) := by decide

/-- IllegalCommandIsRaised: at the least and greatest bytes of each of its three tests, and a legal byte
for its second clause. -/
theorem test_witness_IllegalCommandIsRaised :
    (asked ⟨0x80, 0, 0⟩).constructed = true ∧ (asked ⟨0x80, 0, 0⟩).pending = [⟨0x80, 0, 0⟩] ∧
    (0x80 : CmdByte).getLsbD 7 = true ∧ (0xFF : CmdByte).getLsbD 7 = true ∧
    6 ≤ (0x06 : CmdByte).toNat % 8 ∧ 6 ≤ (0x47 : CmdByte).toNat % 8 ∧
    9 ≤ (0x48 : CmdByte).toNat / 8 % 16 ∧ 9 ≤ (0x7D : CmdByte).toNat / 8 % 16 ∧
    ¬((0x45 : CmdByte).getLsbD 7 = true ∨ 6 ≤ (0x45 : CmdByte).toNat % 8 ∨
      9 ≤ (0x45 : CmdByte).toNat / 8 % 16) := by decide

/-- StatusCodesOfServedRequests: its hypotheses, and each STATUS met. -/
theorem test_witness_StatusCodesOfServedRequests :
    (asked ⟨0x34, 1, 40⟩).constructed = true ∧ (asked ⟨0x34, 1, 40⟩).pending = [⟨0x34, 1, 40⟩] ∧
    (served ⟨0x34, 1, 40⟩).map Response.status = some 2 ∧ (served ⟨0x34, 1, 31⟩).map Response.status = some 0 ∧
    (served ⟨0x36, 1, 31⟩).map Response.status = some 1 := by decide +kernel

/-- FaultPriority: an illegal byte with a bad B, and the cases (a), (b), (c) at their bounds. -/
theorem test_witness_FaultPriority :
    (asked ⟨0xA4, 1, 0x80000000⟩).constructed = true ∧
    (asked ⟨0xA4, 1, 0x80000000⟩).pending = [⟨0xA4, 1, 0x80000000⟩] ∧
    CmdByte.wellFormed 0xA4 = false ∧
    CmdByte.wellFormed 0x24 = true ∧ (0x24 : CmdByte).toNat % 8 = 4 ∧
    ((0x80000000 : Bus).setWidth 32).signExtend 64 ≠ 0x80000000 ∧
    ((0xFFFFFFFF80000000 : Bus).setWidth 32).signExtend 64 = 0xFFFFFFFF80000000 ∧
    (0xFFFFFFFF80000000 : Bus).toInt = -2147483648 ∧
    CmdByte.wellFormed 0x3D = true ∧ (0x3D : CmdByte).toNat % 8 = 5 ∧ (0x3D : CmdByte).toNat / 8 = 7 ∧
    32 ≤ (32 : Bus).toInt.natAbs % 64 ∧ ((32 : Bus).setWidth 32).signExtend 64 = 32 ∧
    32 ≤ (0xFFFFFFFF80000001 : Bus).toInt.natAbs % 64 ∧
    ((0xFFFFFFFF80000001 : Bus).setWidth 32).signExtend 64 = 0xFFFFFFFF80000001 := by decide

/-- StepWithNothingPendingIsIdle. -/
theorem test_witness_StepWithNothingPendingIsIdle :
    (State.reset.withResponse (.ok 7)).constructed = true ∧ (State.reset.withResponse (.ok 7)).pending = [] :=
  ⟨rfl, rfl⟩

/-- EndOfResetBuildsTheTable: reset asserted, with a request waiting. -/
theorem test_witness_EndOfResetBuildsTheTable :
    ((asked ⟨0x23, 0, 0⟩).assertReset.present ⟨0x24, 1, 31⟩).constructed = false := rfl

/-- EveryStepKeepsTheTableIntact: a constructed and a not yet constructed state, each with its step. -/
theorem test_witness_EveryStepKeepsTheTableIntact :
    State.reset.TableIntact ∧ step State.reset = .next State.reset ∧ State.reset.constructed = true ∧
    State.reset.assertReset.TableIntact ∧ step State.reset.assertReset = .next State.reset.assertReset.build :=
  ⟨fun _ => rfl, rfl, rfl, fun _ => rfl, rfl⟩

/-- EveryInstructionEndsInOneResponse: both clauses. -/
theorem test_witness_EveryInstructionEndsInOneResponse :
    (Instr.bshlI64 1 31).wellFormed = true ∧ (Instr.bshlI64 1 32).wellFormed = false := by decide

/-- ResponseDependsOnTheRequestAlone: two engines with the same oldest request and different pasts. -/
theorem test_witness_ResponseDependsOnTheRequestAlone :
    (asked ⟨0x24, 1, 31⟩).Ready ∧ (((asked ⟨0x24, 1, 31⟩).present ⟨0x06, 0, 0⟩).withResponse (.ok 7)).Ready ∧
    (asked ⟨0x24, 1, 31⟩).pending = ⟨0x24, 1, 31⟩ :: [] ∧
    (((asked ⟨0x24, 1, 31⟩).present ⟨0x06, 0, 0⟩).withResponse (.ok 7)).pending =
      ⟨0x24, 1, 31⟩ :: [⟨0x06, 0, 0⟩] :=
  ⟨⟨rfl, rfl⟩, ⟨rfl, rfl⟩, rfl, rfl⟩

/-- RunAnswersEveryRequestInOrder: a ready engine with two requests. -/
theorem test_witness_RunAnswersEveryRequestInOrder :
    ((asked ⟨0x34, 1, 40⟩).present ⟨0x34, 1, 31⟩).Ready ∧
    ((asked ⟨0x34, 1, 40⟩).present ⟨0x34, 1, 31⟩).pending = [⟨0x34, 1, 40⟩, ⟨0x34, 1, 31⟩] :=
  ⟨⟨rfl, rfl⟩, rfl⟩

/-- RunIsCleanUntilTheFirstIllFormedRequest: a run of well-formed requests, and one that an ill-formed
one ends. -/
theorem test_witness_RunIsCleanUntilTheFirstIllFormedRequest :
    (asked ⟨0x34, 1, 31⟩).Ready ∧ (∀ q ∈ (asked ⟨0x34, 1, 31⟩).pending, Request.WellFormed q = true) ∧
    ((asked ⟨0x34, 1, 31⟩).present ⟨0x34, 1, 40⟩).Ready ∧
    ((asked ⟨0x34, 1, 31⟩).present ⟨0x34, 1, 40⟩).pending = [⟨0x34, 1, 31⟩] ++ ⟨0x34, 1, 40⟩ :: [] ∧
    (∀ g ∈ ([⟨0x34, 1, 31⟩] : List Request), Request.WellFormed g = true) ∧
    Request.WellFormed ⟨0x34, 1, 40⟩ = false := by decide

/-- FloorDivisionIsTheFloorOfTheQuotient and TrueModuloFollowsTheDivisor: a divisor of each sign. -/
theorem test_witness_DivisorsOfBothSigns :
    (2 : Int) ≠ 0 ∧ (0 : Int) < 2 ∧ (-2 : Int) ≠ 0 ∧ (-2 : Int) < 0 ∧ (1 : Int) ≠ 0 ∧ (-1 : Int) ≠ 0 := by decide

/-- TruncKeepsTheLowBits and ResponseExtendsTheResultValue: the ends of a signed and an unsigned range. -/
theorem test_witness_RangeEnds :
    Width.i8.minValue = -128 ∧ Width.i8.maxValue = 127 ∧ Width.u64.minValue = 0 ∧
    Width.u64.maxValue = 18446744073709551615 ∧ Width.minValue .i8 ≤ -128 ∧ (-128 : Int) ≤ Width.maxValue .i8 ∧
    Width.minValue .u64 ≤ 18446744073709551615 ∧
    (18446744073709551615 : Int) ≤ Width.maxValue .u64 := by decide

/-- ResultConversionPerWidth, CanonicalAndIsNativeAnd, CanonicalOrIsNativeOr, CanonicalNotIsTheComplement
and CanonicalShiftDelegation: the ends of the canonical range, and a width of at most 32 bits. -/
theorem test_witness_CanonicalRange :
    (-2147483648 : Int) ≤ -2147483648 ∧ (-2147483648 : Int) ≤ 2147483647 ∧
    (-2147483648 : Int) ≤ 2147483647 ∧ (2147483647 : Int) ≤ 2147483647 ∧ Width.u32.bits ≤ 32 := by decide

/-- CanonicalShiftDelegation: the least and the greatest valid amount. -/
theorem test_witness_CanonicalShiftDelegation :
    (-2147483647 : Int) ≤ -2147483647 ∧ (-2147483647 : Int) ≤ 2147483647 ∧ (2147483647 : Int) ≤ 2147483647 := by
  decide

/-- NarrowTruncIgnoresTobit: two integers with the same low bits at a narrow width. -/
theorem test_witness_NarrowTruncIgnoresTobit :
    Width.i8.bits ≤ 32 ∧ BitVec.ofInt Width.i8.bits 384 = BitVec.ofInt Width.i8.bits (-128) := by decide

/-- CanonicalXorIsNativeXor: the first and the last step count. -/
theorem test_witness_CanonicalXorIsNativeXor : (0 : Nat) ≤ 32 ∧ (32 : Nat) ≤ 32 := by decide

/-- AndAtEveryWidth, OrAtEveryWidth, XorAtEveryWidth: a state with the table, requests waiting. -/
theorem test_witness_StatesWithTheTable : (asked ⟨0x24, 1, 31⟩).pow2 = pow2Contents := rfl

/-- NotIgnoresB: a NOT byte, and an illegal one with OP = 3. -/
theorem test_witness_NotIgnoresB : (0x43 : CmdByte).toNat % 8 = 3 ∧ (0xFB : CmdByte).toNat % 8 = 3 := by decide

/-- ShiftLeftByNonNegativeAmount, ShiftRightByNonNegativeAmount and
WideResultsAreNativeExactlyOnSignExtensions: the least and the greatest amount, and amounts whose
reduction modulo 64 is at the bound. -/
theorem test_witness_NonNegativeAmounts :
    State.reset.pow2 = pow2Contents ∧ (0 : Nat) < 2147483648 ∧ 0 % 64 ≤ 31 ∧ 2147483647 < 2147483648 ∧
    95 % 64 ≤ 31 ∧ 95 < 2147483648 ∧ ¬ 2147483647 % 64 ≤ 31 := by decide

/-- NegativeAmountIsTheOtherShift: its bounds at a narrow and at a wide width. -/
theorem test_witness_NegativeAmountIsTheOtherShift :
    1 ≤ 2147483647 ∧ 2147483647 < 2147483648 ∧ (Width.c16.bits = 64 → 2147483647 % 64 ≤ 31) ∧
    1 ≤ 95 ∧ 95 < 2147483648 ∧ (Width.u64.bits = 64 → 95 % 64 ≤ 31) := by decide

/-- I32ShiftsAreTheCanonicalShifts: the ends of the amount's range. -/
theorem test_witness_I32ShiftsAreTheCanonicalShifts :
    (-2147483648 : Int) ≤ -2147483648 ∧ (-2147483648 : Int) ≤ 2147483647 ∧ (2147483647 : Int) ≤ 2147483647 := by
  decide

/-- WideShiftsRefuseReducedAmountsAbove31: both bounds of the reduced amount, both signs. -/
theorem test_witness_WideShiftsRefuseReducedAmountsAbove31 :
    (-2147483647 : Int) ≤ 32 ∧ (32 : Int) ≤ 2147483647 ∧ 32 ≤ (32 : Int).natAbs % 64 ∧
    32 ≤ (63 : Int).natAbs % 64 ∧ 32 ≤ (-2147483647 : Int).natAbs % 64 ∧
    (-2147483647 : Int) ≤ 2147483647 := by decide

/-- NarrowShiftsAcceptEveryAmount: the widest narrow width and the ends of the range. -/
theorem test_witness_NarrowShiftsAcceptEveryAmount :
    Width.u32.bits ≤ 32 ∧ (-2147483647 : Int) ≤ -2147483647 ∧ (-2147483647 : Int) ≤ 2147483647 := by decide

/-- ResultsLieInTheirRanges: a canonical value, a canonical shift with a result, an instruction with one. -/
theorem test_witness_ResultsLieInTheirRanges :
    bNot 0 ∈ [bAnd pow2Contents 0 0, bOr pow2Contents 0 0, bXor pow2Contents 0 0, bNot 0] ∧
    canonicalShift .shl pow2Contents 1 31 = .ok (-2147483648) ∧
    ran (instrOf .bnot .i8 5 0) = some (.ok 0xFFFFFFFFFFFFFFFA) := by decide +kernel

end Sys2Proof.Tests
end

section
/-! The character width (00_scope.md R8): a dispatch takes from its width the bit count and the
signedness only, and c16 has those of u16. So each function of a width agrees at the two, from
`trunc` up to the three dispatches. -/

namespace Sys2Proof.Machine

theorem c16_bits : Width.c16.bits = Width.u16.bits := rfl

theorem trunc_c16 (v : Int) : trunc .c16 v = trunc .u16 v := by
  rw [trunc_of_unsigned (w := .c16) rfl, trunc_of_unsigned (w := .u16) rfl, c16_bits]

theorem operand_c16 (x : Bus) : operand .c16 x = operand .u16 x := trunc_c16 _

theorem reduceAmount_c16 (k : ShiftKind) (n m : Int) :
    reduceAmount k .c16 n m = reduceAmount k .u16 n m := by
  rw [reduceAmount, reduceAmount, c16_bits]

theorem shamt_c16 (k : ShiftKind) (n : Int) : shamt k .c16 n = shamt k .u16 n := by
  simp only [shamt, reduceAmount_c16]

theorem dispatch2_c16 (f : PowTable → Int → Int → Int) (a b : Bus) (s : State) :
    dispatch2 f .c16 a b s = dispatch2 f .u16 a b s := by
  simp only [dispatch2, operand_c16, trunc_c16]

theorem dispatch1_c16 (a : Bus) (s : State) : dispatch1 .c16 a s = dispatch1 .u16 a s := by
  simp only [dispatch1, operand_c16, trunc_c16]

theorem dispatchShift_c16 (k : ShiftKind) (a b : Bus) (s : State) :
    dispatchShift k .c16 a b s = dispatchShift k .u16 a b s := by
  simp only [dispatchShift, shamt_c16, operand_c16, trunc_c16]

/-- Settles O53: each operation is one dispatch at every width, and the dispatch agrees at c16 and u16. -/
theorem characterWidthBehavesAsU16 : Obligations.CharacterWidthBehavesAsU16 := by
  intro op a b s
  cases op with
  | band => rw [exec_band, exec_band, dispatch2_c16]
  | bor => rw [exec_bor, exec_bor, dispatch2_c16]
  | bxor => rw [exec_bxor, exec_bxor, dispatch2_c16]
  | bnot => rw [exec_bnot, exec_bnot, dispatch1_c16]
  | bshl => rw [exec_bshl, exec_bshl, dispatchShift_c16]
  | bshr => rw [exec_bshr, exec_bshr, dispatchShift_c16]

end Sys2Proof.Machine
end

section
/-! The answer of an engine as a value: what an instruction computes before its result is narrowed to
the width, as a function of the table, the operation and the two buses alone (10_state.md R23). Every
instruction and every request ends by setting the response to such an answer, and sets nothing else. -/

namespace Sys2Proof.Machine

/-- The canonical value a shift gives before narrowing, or the cause that its amount raises (R57, R164). -/
def shiftValue (k : ShiftKind) (w : Width) (t : PowTable) (a b : Bus) : Except Cause Int :=
  match shiftAmount b with
  | .error e => .error e
  | .ok n =>
    match shamt k w n with
    | .error e => .error e
    | .ok (k', i) => .ok (shiftBy k' t (tobit (operand w a)) i)

/-- The canonical value an operation gives before narrowing, or the cause it raises (R77 to R79). -/
def canonicalValue (op : Operation) (w : Width) (t : PowTable) (a b : Bus) : Except Cause Int :=
  match op with
  | .band => .ok (bAnd t (tobit (operand w a)) (tobit (operand w b)))
  | .bor => .ok (bOr t (tobit (operand w a)) (tobit (operand w b)))
  | .bxor => .ok (bXor t (tobit (operand w a)) (tobit (operand w b)))
  | .bnot => .ok (bNot (tobit (operand w a)))
  | .bshl => shiftValue .shl w t a b
  | .bshr => shiftValue .shr w t a b

/-- The response at a width: the narrowed value on the result bus, or the fault (30_encoding.md R62,
60_exceptions.md R201). -/
def responseAt (w : Width) : Except Cause Int → Response
  | .ok v => .ok (busOf (trunc w v))
  | .error e => .raised e

theorem dispatchShift_eq (k : ShiftKind) (w : Width) (a b : Bus) (s : State) :
    dispatchShift k w a b s = .next (s.withResponse (responseAt w (shiftValue k w s.pow2 a b))) := by
  obtain ⟨n, k', i, hb, hn, hs⟩ | ⟨e, hb | ⟨n, hb, hn⟩, hs⟩ := dispatchShift_cases k w a b s
  · simp only [hs, shiftValue, hb, hn, responseAt]
  · simp only [hs, shiftValue, hb, responseAt]
  · simp only [hs, shiftValue, hb, hn, responseAt]

/-- Every instruction answers its canonical value narrowed to its width, and changes nothing else. -/
theorem exec_instrOf (op : Operation) (w : Width) (a b : Bus) (s : State) :
    exec (instrOf op w a b) s =
      .next (s.withResponse (responseAt w (canonicalValue op w s.pow2 a b))) := by
  cases op with
  | band => rw [exec_band]; rfl
  | bor => rw [exec_bor]; rfl
  | bxor => rw [exec_bxor]; rfl
  | bnot => rw [exec_bnot]; rfl
  | bshl => rw [exec_bshl, dispatchShift_eq]; rfl
  | bshr => rw [exec_bshr, dispatchShift_eq]; rfl

/-- A request that decodes selects an operation at a width on its own buses (30_encoding.md R54). -/
theorem decode_ok {q : Request} {i : Instr} (h : decode q = .ok i) :
    ∃ op w, i = instrOf op w q.a q.b := by
  unfold decode at h
  split at h
  · cases h
  · split at h
    · cases h
    · split at h
      · cases h
      · exact ⟨_, _, (Except.ok.inj h).symm⟩

/-- Serving a request sets the response alone, to an answer that is fixed by the request and the table:
the same `p` for every state that holds the table `t`. -/
theorem serveRequest_next (q : Request) (t : PowTable) :
    ∃ p : Response, ∀ s : State, s.pow2 = t → serveRequest q s = .next (s.withResponse p) := by
  rcases hd : decode q with e | i
  · exact ⟨.raised (.illegalCmd q.cmd), fun s _ => by simp only [serveRequest, hd, raise]⟩
  · obtain ⟨op, w, rfl⟩ := decode_ok hd
    refine ⟨responseAt w (canonicalValue op w t q.a q.b), ?_⟩
    rintro s rfl
    simp only [serveRequest, hd, exec_instrOf]

theorem step_of_pending {s : State} {q : Request} {qs : List Request} (hc : s.constructed = true)
    (hq : s.pending = q :: qs) : step s = serveRequest q (s.accept qs) := by
  simp only [step, engineStep, serveNext, hc, hq, if_true]

/-- Settles O20: both tables are the one of R21, and the request and the table fix the answer. -/
theorem responseDependsOnTheRequestAlone : Obligations.ResponseDependsOnTheRequestAlone := by
  rintro s t q qs rs ⟨hsc, hst⟩ ⟨htc, htt⟩ hs ht
  obtain ⟨p, hp⟩ := serveRequest_next q pow2Contents
  exact ⟨p, (step_of_pending hsc hs).trans (hp (s.accept qs) hst),
    (step_of_pending htc ht).trans (hp (t.accept rs) htt)⟩

end Sys2Proof.Machine
end

section
/-! The table along a step (10_state.md R22): the end of reset writes it, and nothing else does. -/

namespace Sys2Proof.Machine

/-- A step either finishes reset or leaves the table of a constructed engine and its mark alone. -/
theorem step_table_cases {s t : State} (h : step s = .next t) :
    (s.constructed = false ∧ t = s.build) ∨
    (s.constructed = true ∧ t.pow2 = s.pow2 ∧ t.constructed = true) := by
  obtain ⟨hc, hs⟩ | ⟨hc, -, hs⟩ | ⟨q, qs, hc, -, hs⟩ := step_cases s
  · exact .inl ⟨hc, Host.Outcome.next.inj (h.symm.trans hs)⟩
  · cases h.symm.trans hs
    exact .inr ⟨hc, s.idle_pow2, hc⟩
  · obtain ⟨p, hp⟩ := serveRequest_next q s.pow2
    cases h.symm.trans (hs.trans (hp (s.accept qs) rfl))
    exact .inr ⟨hc, rfl, hc⟩

/-- Settles O17: a step that finishes reset writes the table of R21; any other keeps what stands. -/
theorem everyStepKeepsTheTableIntact : Obligations.EveryStepKeepsTheTableIntact := by
  intro s t hs h
  obtain ⟨hc, rfl⟩ | ⟨hc, hpow2, hmark⟩ := step_table_cases h
  · exact ⟨fun _ => s.build_pow2, fun hc' => absurd (hc.symm.trans hc') Bool.false_ne_true⟩
  · exact ⟨fun _ => hpow2.trans (hs hc), fun _ => ⟨hpow2, hmark⟩⟩

end Sys2Proof.Machine
end

section
/-! Ranges (10_state.md R26): `tobit` ends every canonical operation and `trunc` every instruction, so
the ranges of these two are the ranges of the results. -/

namespace Sys2Proof.Machine

theorem tobit_range (v : Int) : -2147483648 ≤ tobit v ∧ tobit v ≤ 2147483647 := by
  rw [tobit_eq_ite]
  split <;> omega

theorem shiftBy_range (k : ShiftKind) (t : PowTable) (v : Int) (i : Fin 32) :
    -2147483648 ≤ shiftBy k t v i ∧ shiftBy k t v i ≤ 2147483647 := by
  cases k with
  | shl => exact tobit_range _
  | shr => exact tobit_range _

theorem canonicalShift_range {k : ShiftKind} {t : PowTable} {l n v : Int}
    (h : canonicalShift k t l n = .ok v) : -2147483648 ≤ v ∧ v ≤ 2147483647 := by
  obtain ⟨-, hs⟩ | ⟨-, -, hs⟩ | ⟨-, hs⟩ := canonicalShift_cases k t l n
  · cases h.symm.trans hs
  · cases h.symm.trans hs
    exact shiftBy_range _ _ _ _
  · cases h.symm.trans hs
    exact shiftBy_range _ _ _ _

/-- A pattern of width n + 1 read as signed lies in the signed range of that width (R75). -/
theorem sext_range (n : Nat) {p : Int} (h0 : 0 ≤ p) (h1 : p < ((2 ^ (n + 1) : Nat) : Int)) :
    -((2 ^ n : Nat) : Int) ≤ sext (n + 1) p ∧ sext (n + 1) p ≤ ((2 ^ n : Nat) : Int) - 1 := by
  have hpow : 2 ^ (n + 1) = 2 * 2 ^ n := Nat.pow_succ'
  rw [sext, Nat.add_sub_cancel, hpow]
  rw [hpow] at h1
  split <;> omega

theorem Width.bits_eq_succ (w : Width) : w.bits = w.bits - 1 + 1 := by cases w <;> rfl

theorem trunc_range (w : Width) (v : Int) : w.minValue ≤ trunc w v ∧ trunc w v ≤ w.maxValue := by
  have hpos : (0 : Int) < ((2 ^ w.bits : Nat) : Int) := by positivity
  have hnonneg := Int.emod_nonneg v hpos.ne'
  have hlt := Int.emod_lt_of_pos v hpos
  cases hw : w.signed with
  | false =>
    simp only [trunc_of_unsigned hw, Width.minValue, Width.maxValue, hw, Bool.false_eq_true, if_false]
    exact ⟨hnonneg, Int.le_sub_one_of_lt hlt⟩
  | true =>
    simp only [trunc_of_signed hw, Width.minValue, Width.maxValue, hw, if_true]
    rw [Width.bits_eq_succ w] at hnonneg hlt ⊢
    exact sext_range _ hnonneg hlt

theorem toNat_busOf (v : Int) : ((busOf v).toNat : Int) = mod v Config.busModulus := by
  rw [busOf_eq_ofInt, BitVec.toNat_ofInt, mod_of_pos v (by decide)]
  exact Int.toNat_of_nonneg (Int.emod_nonneg v (by decide))

theorem responseAt_eq_ok {w : Width} {c : Except Cause Int} {r : Bus} (h : responseAt w c = .ok r) :
    ∃ v, r = busOf (trunc w v) := by
  cases c with
  | ok v => exact ⟨v, (Response.ok.inj h).symm⟩
  | error e => cases h

/-- A result of an instruction is the bus pattern of a value narrowed to its width. -/
theorem exec_instrOf_result {op : Operation} {w : Width} {a b r : Bus} {s : State}
    (h : exec (instrOf op w a b) s = .next { s with response := some (.ok r) }) :
    ∃ v, r = busOf (trunc w v) := by
  have hresponse := congrArg responseOf ((exec_instrOf op w a b s).symm.trans h)
  exact responseAt_eq_ok (Option.some.inj hresponse)

/-- Settles O50, by the ranges of `tobit` and `trunc`. -/
theorem resultsLieInTheirRanges : Obligations.ResultsLieInTheirRanges := by
  refine ⟨fun t l r => ?_, fun k t l n v h => canonicalShift_range h, fun op w a b r s h => ?_⟩
  · simp only [List.forall_mem_cons]
    exact ⟨tobit_range _, tobit_range _, tobit_range _, tobit_range _,
      List.forall_mem_nil _⟩
  · obtain ⟨v, rfl⟩ := exec_instrOf_result h
    obtain ⟨hmin, hmax⟩ := trunc_range w v
    exact ⟨trunc w v, hmin, hmax, busOf_eq_ofInt _, toNat_busOf _⟩

end Sys2Proof.Machine
end

section
/-! A run over the pending requests (20_memory.md R42): each step answers the oldest request with the
answer of an engine fresh from reset and leaves an engine that is ready for the rest. -/

namespace Sys2Proof.Machine

/-- A request has an answer, and every engine that holds the table of R21 serves it with that answer. -/
theorem serveRequest_answer (q : Request) :
    ∃ p : Response, answer q = some p ∧
      ∀ s : State, s.pow2 = pow2Contents → serveRequest q s = .next (s.withResponse p) := by
  obtain ⟨p, hp⟩ := serveRequest_next q pow2Contents
  exact ⟨p, congrArg responseOf (hp State.reset rfl), hp⟩

/-- A step of a ready engine answers its oldest request and leaves a ready engine with the rest. -/
theorem step_answers {s : State} {q : Request} {qs : List Request} (hs : s.Ready)
    (hq : s.pending = q :: qs) :
    ∃ t : State, step s = .next t ∧ t.response = answer q ∧ t.pending = qs ∧ t.Ready := by
  obtain ⟨hmark, htable⟩ := hs
  obtain ⟨p, hanswer, hserve⟩ := serveRequest_answer q
  exact ⟨(s.accept qs).withResponse p, (step_of_pending hmark hq).trans (hserve (s.accept qs) htable),
    hanswer.symm, rfl, hmark, htable⟩

theorem trace_succ {s t : State} (n : Nat) (h : step s = .next t) :
    trace (n + 1) s = t.response :: trace n t := by
  rw [trace, h]

theorem run_succ {M : Host.Core} {s t : M.State} (n : Nat) (h : M.step s = .next t) :
    M.run (n + 1) s = M.run n t := by
  rw [Host.Core.run, h]

theorem trace_pending {qs : List Request} {s : State} (hs : s.Ready) (hqs : s.pending = qs) :
    trace qs.length s = qs.map answer := by
  induction qs generalizing s with
  | nil => rfl
  | cons q qs ih =>
    obtain ⟨t, hstep, hresponse, hpending, ht⟩ := step_answers hs hqs
    rw [List.length_cons, trace_succ _ hstep, hresponse, ih ht hpending, List.map_cons]

theorem run_pending {qs : List Request} {s : State} (hs : s.Ready) (hqs : s.pending = qs) :
    ∃ t : State, Sys2Proof.core.run qs.length s = .next t ∧ t.pending = [] ∧ t.Ready := by
  induction qs generalizing s with
  | nil => exact ⟨s, rfl, hqs, hs⟩
  | cons q qs ih =>
    obtain ⟨t, hstep, -, hpending, ht⟩ := step_answers hs hqs
    obtain ⟨u, hrun, hu⟩ := ih ht hpending
    exact ⟨u, (run_succ (M := Sys2Proof.core) qs.length hstep).trans hrun, hu⟩

/-- Settles O21, by induction on the pending requests, each step answering the oldest. -/
theorem runAnswersEveryRequestInOrder : Obligations.RunAnswersEveryRequestInOrder := by
  refine fun s hs => ⟨trace_pending hs rfl, fun q => ?_, run_pending hs rfl⟩
  obtain ⟨p, hanswer, -⟩ := serveRequest_answer q
  exact Option.ne_none_iff_exists'.mpr ⟨p, hanswer⟩

end Sys2Proof.Machine
end

section
/-! The fields of a command byte as numbers (30_encoding.md R51 to R53), what the decoder does with a byte,
and the encoder as its inverse (R54, R64). -/

namespace Sys2Proof

/-! ## The fields and their codes -/

theorem reservedField_ne_zero_iff (c : CmdByte) : reservedField c ≠ 0 ↔ 128 ≤ c.toNat := by
  have hlt := c.isLt
  rw [ne_eq, BitVec.toNat_eq, reservedField, BitVec.extractLsb'_toNat, Nat.shiftRight_eq_div_pow]
  change ¬ c.toNat / 2 ^ 7 % 2 ^ 1 = 0 ↔ 128 ≤ c.toNat
  omega

theorem toNat_opField (c : CmdByte) : (opField c).toNat = c.toNat % 8 := by
  rw [opField, BitVec.extractLsb'_toNat, Nat.shiftRight_zero]

theorem toNat_widField (c : CmdByte) : (widField c).toNat = c.toNat / 8 % 16 := by
  rw [widField, BitVec.extractLsb'_toNat, Nat.shiftRight_eq_div_pow]

theorem operationOfCode_of_toNat {x : BitVec 3} {op : Operation} (h : x.toNat = op.code) :
    operationOfCode x = some op := by
  rw [operationOfCode, h]
  cases op <;> rfl

theorem widthOfCode_of_toNat {x : BitVec 4} {w : Width} (h : x.toNat = w.code) :
    widthOfCode x = some w := by
  rw [widthOfCode, h]
  cases w <;> rfl

theorem operationOfCode_reserved : ∀ x : BitVec 3, 6 ≤ x.toNat → operationOfCode x = none := by decide

theorem widthOfCode_reserved : ∀ x : BitVec 4, 9 ≤ x.toNat → widthOfCode x = none := by decide

theorem Operation.code_lt (op : Operation) : op.code < 6 := by cases op <;> decide

theorem Width.code_lt (w : Width) : w.code < 9 := by cases w <;> decide

theorem Operation.exists_code {n : Nat} (h : n < 6) : ∃ op : Operation, n = op.code := by
  interval_cases n
  exacts [⟨.band, rfl⟩, ⟨.bor, rfl⟩, ⟨.bxor, rfl⟩, ⟨.bnot, rfl⟩, ⟨.bshl, rfl⟩, ⟨.bshr, rfl⟩]

theorem Width.exists_code {n : Nat} (h : n < 9) : ∃ w : Width, n = w.code := by
  interval_cases n
  exacts [⟨.i8, rfl⟩, ⟨.u8, rfl⟩, ⟨.i16, rfl⟩, ⟨.u16, rfl⟩, ⟨.i32, rfl⟩, ⟨.u32, rfl⟩, ⟨.i64, rfl⟩,
    ⟨.u64, rfl⟩, ⟨.c16, rfl⟩]

theorem Operation.code_eq_three_iff (op : Operation) : op.code = 3 ↔ op = .bnot := by
  cases op <;> decide

/-! ## The operation and the width of an instruction -/

/-- The operation an instruction is of: the column of its cell of R64. -/
def Instr.operation : Instr → Operation
  | .bandI8 .. | .bandU8 .. | .bandI16 .. | .bandU16 .. | .bandI32 .. | .bandU32 .. | .bandI64 ..
  | .bandU64 .. | .bandC16 .. => .band
  | .borI8 .. | .borU8 .. | .borI16 .. | .borU16 .. | .borI32 .. | .borU32 .. | .borI64 ..
  | .borU64 .. | .borC16 .. => .bor
  | .bxorI8 .. | .bxorU8 .. | .bxorI16 .. | .bxorU16 .. | .bxorI32 .. | .bxorU32 .. | .bxorI64 ..
  | .bxorU64 .. | .bxorC16 .. => .bxor
  | .bnotI8 .. | .bnotU8 .. | .bnotI16 .. | .bnotU16 .. | .bnotI32 .. | .bnotU32 .. | .bnotI64 ..
  | .bnotU64 .. | .bnotC16 .. => .bnot
  | .bshlI8 .. | .bshlU8 .. | .bshlI16 .. | .bshlU16 .. | .bshlI32 .. | .bshlU32 .. | .bshlI64 ..
  | .bshlU64 .. | .bshlC16 .. => .bshl
  | .bshrI8 .. | .bshrU8 .. | .bshrI16 .. | .bshrU16 .. | .bshrI32 .. | .bshrU32 .. | .bshrI64 ..
  | .bshrU64 .. | .bshrC16 .. => .bshr

/-- The width an instruction is of: the row of its cell of R64. -/
def Instr.width : Instr → Width
  | .bandI8 .. | .borI8 .. | .bxorI8 .. | .bnotI8 .. | .bshlI8 .. | .bshrI8 .. => .i8
  | .bandU8 .. | .borU8 .. | .bxorU8 .. | .bnotU8 .. | .bshlU8 .. | .bshrU8 .. => .u8
  | .bandI16 .. | .borI16 .. | .bxorI16 .. | .bnotI16 .. | .bshlI16 .. | .bshrI16 .. => .i16
  | .bandU16 .. | .borU16 .. | .bxorU16 .. | .bnotU16 .. | .bshlU16 .. | .bshrU16 .. => .u16
  | .bandI32 .. | .borI32 .. | .bxorI32 .. | .bnotI32 .. | .bshlI32 .. | .bshrI32 .. => .i32
  | .bandU32 .. | .borU32 .. | .bxorU32 .. | .bnotU32 .. | .bshlU32 .. | .bshrU32 .. => .u32
  | .bandI64 .. | .borI64 .. | .bxorI64 .. | .bnotI64 .. | .bshlI64 .. | .bshrI64 .. => .i64
  | .bandU64 .. | .borU64 .. | .bxorU64 .. | .bnotU64 .. | .bshlU64 .. | .bshrU64 .. => .u64
  | .bandC16 .. | .borC16 .. | .bxorC16 .. | .bnotC16 .. | .bshlC16 .. | .bshrC16 .. => .c16

theorem instrOf_operation_width (i : Instr) : instrOf i.operation i.width i.busA i.busB = i := by
  cases i <;> rfl

/-- Constructor by constructor: the CMD value printed in R64 is WID * 8 + OP. -/
theorem Instr.toNat_cmd (i : Instr) : i.cmd.toNat = i.width.code * 8 + i.operation.code := by
  cases i <;> rfl

/-! ## Decoding and encoding -/

theorem toNat_codes (op : Operation) (w : Width) :
    (BitVec.ofNat 8 (w.code * 8 + op.code)).toNat = w.code * 8 + op.code := by
  have hop := op.code_lt
  have hw := w.code_lt
  rw [BitVec.toNat_ofNat]
  omega

/-- The CMD value WID * 8 + OP selects the instruction of that operation and width (R54). -/
theorem decode_of_toNat {c : CmdByte} {op : Operation} {w : Width} (h : c.toNat = w.code * 8 + op.code)
    (a b : Bus) : decode ⟨c, a, b⟩ = .ok (instrOf op w a b) := by
  have hop := op.code_lt
  have hw := w.code_lt
  have hbit : ¬ reservedField c ≠ 0 := mt (reservedField_ne_zero_iff c).mp (by omega)
  have hopField : operationOfCode (opField c) = some op :=
    operationOfCode_of_toNat (by rw [toNat_opField]; omega)
  have hwidField : widthOfCode (widField c) = some w :=
    widthOfCode_of_toNat (by rw [toNat_widField]; omega)
  simp only [decode, if_neg hbit, hopField, hwidField]

/-- Everything the decoder can do with a command byte, in the order of the tests of R54. The byte alone
decides; the operand patterns only go along. -/
theorem decode_cases (c : CmdByte) :
    (128 ≤ c.toNat ∧ ∀ a b, decode ⟨c, a, b⟩ = .error .reservedBit) ∨
    (c.toNat < 128 ∧ 6 ≤ c.toNat % 8 ∧ ∀ a b, decode ⟨c, a, b⟩ = .error .reservedOperation) ∨
    (c.toNat < 128 ∧ c.toNat % 8 < 6 ∧ 9 ≤ c.toNat / 8 % 16 ∧
      ∀ a b, decode ⟨c, a, b⟩ = .error .reservedWidth) ∨
    (∃ (op : Operation) (w : Width), c.toNat = w.code * 8 + op.code ∧
      ∀ a b, decode ⟨c, a, b⟩ = .ok (instrOf op w a b)) := by
  by_cases hbit : reservedField c ≠ 0
  · exact .inl ⟨(reservedField_ne_zero_iff c).mp hbit, fun a b => if_pos hbit⟩
  have hlow : c.toNat < 128 := Nat.lt_of_not_le (mt (reservedField_ne_zero_iff c).mpr hbit)
  rcases Nat.lt_or_ge (c.toNat % 8) 6 with hop | hop
  · obtain ⟨op, hopCode⟩ := Operation.exists_code hop
    have hopField := operationOfCode_of_toNat ((toNat_opField c).trans hopCode)
    rcases Nat.lt_or_ge (c.toNat / 8 % 16) 9 with hwid | hwid
    · obtain ⟨w, hwidCode⟩ := Width.exists_code hwid
      have hc : c.toNat = w.code * 8 + op.code := by omega
      exact .inr (.inr (.inr ⟨op, w, hc, decode_of_toNat hc⟩))
    · have hwidField := widthOfCode_reserved (widField c) (hwid.trans_eq (toNat_widField c).symm)
      exact .inr (.inr (.inl ⟨hlow, hop, hwid, fun a b => by
        simp only [decode, if_neg hbit, hopField, hwidField]⟩))
  · have hopField := operationOfCode_reserved (opField c) (hop.trans_eq (toNat_opField c).symm)
    exact .inr (.inl ⟨hlow, hop, fun a b => by simp only [decode, if_neg hbit, hopField]⟩)

/-- A command byte either is rejected on all buses or selects one instruction on all buses (R54). -/
theorem decode_rejects_or_selects (c : CmdByte) :
    (∃ e, ∀ a b, decode ⟨c, a, b⟩ = .error e) ∨
    (∃ (op : Operation) (w : Width), c.toNat = w.code * 8 + op.code ∧
      ∀ a b, decode ⟨c, a, b⟩ = .ok (instrOf op w a b)) := by
  obtain ⟨-, h⟩ | ⟨-, -, h⟩ | ⟨-, -, -, h⟩ | h := decode_cases c
  · exact .inl ⟨_, h⟩
  · exact .inl ⟨_, h⟩
  · exact .inl ⟨_, h⟩
  · exact .inr h

/-- The request of each cell of R64; NOT is assembled with 0 in B (R65). -/
theorem encode_instrOf (op : Operation) (w : Width) (a b : Bus) :
    encode (instrOf op w a b) =
      ⟨BitVec.ofNat 8 (w.code * 8 + op.code), a, if op = .bnot then 0 else b⟩ := by
  cases op <;> cases w <;> rfl

theorem decode_encode (i : Instr) : decode (encode i) = .ok i := by
  rw [encode, decode_of_toNat i.toNat_cmd, instrOf_operation_width]

theorem instrOf_bnot (w : Width) (a b b' : Bus) : instrOf .bnot w a b = instrOf .bnot w a b' := by
  cases w <;> rfl

/-! ## The image of a request (log entry 7) -/

theorem Request.ofImage_image (q : Request) : Request.ofImage q.image = q := by
  have hcmd : q.image.extractLsb' 0 8 = q.cmd := by
    rw [Request.image, BitVec.extractLsb'_append_eq_of_add_le (by decide),
      BitVec.extractLsb'_append_eq_right]
  have ha : q.image.extractLsb' 8 64 = q.a := by
    rw [Request.image, BitVec.extractLsb'_append_eq_of_add_le (by decide),
      BitVec.extractLsb'_append_eq_left]
  have hb : q.image.extractLsb' 72 64 = q.b := BitVec.extractLsb'_append_eq_left
  rw [Request.ofImage, hcmd, ha, hb]

end Sys2Proof
end

section
/-! What the decoder and the encoder say of each other, of the assembler and of serving a request. -/

namespace Sys2Proof.Machine

/-- Settles O1: the image keeps the three fields of the request, and the request decodes back. -/
theorem encodedImageDecodesBack : Obligations.EncodedImageDecodesBack := by
  intro i
  rw [decodeImage, encodeImage, Request.ofImage_image, decode_encode]

/-- Settles O2: a byte that decodes is the CMD value of its operation and width, which is what the
encoder writes; its B is 0 exactly at the operation code of NOT. -/
theorem decodedRequestEncodesBack : Obligations.DecodedRequestEncodesBack := by
  rintro ⟨c, a, b⟩ i h
  obtain ⟨e, hd⟩ | ⟨op, w, hc, hd⟩ := decode_rejects_or_selects c
  · cases h.symm.trans (hd a b)
  cases h.symm.trans (hd a b)
  have hop := op.code_lt
  have hnot : c.toNat % 8 = 3 ↔ op = .bnot := by
    rw [← op.code_eq_three_iff, hc]
    omega
  rw [encode_instrOf, ← hc, BitVec.ofNat_toNat]
  simp [hnot]

/-- Settles O3: the branches of the decoder exclude each other, and each field test is arithmetic on the
CMD value. -/
theorem commandByteSelectsByItsFields : Obligations.CommandByteSelectsByItsFields := by
  refine ⟨?_, fun op w a b => decode_of_toNat (toNat_codes op w) a b, fun i =>
    ⟨i.operation, i.width, (instrOf_operation_width i).symm⟩⟩
  rintro ⟨c, a, b⟩
  obtain ⟨_, hd⟩ | ⟨_, _, hd⟩ | ⟨_, _, _, hd⟩ | ⟨op, w, hc, hd⟩ := decode_cases c
  · simp only [hd, reduceCtorEq, Except.error.injEq, true_iff, false_iff]
    omega
  · simp only [hd, reduceCtorEq, Except.error.injEq, true_iff, false_iff]
    omega
  · simp only [hd, reduceCtorEq, Except.error.injEq, true_iff, false_iff]
    omega
  · have hop := op.code_lt
    have hw := w.code_lt
    simp only [hd, reduceCtorEq, false_iff]
    omega

theorem serveRequest_of_rejected {q : Request} {e : DecodeReject} (h : decode q = .error e) (s : State) :
    serveRequest q s = .next (s.withResponse (.raised (.illegalCmd q.cmd))) := by
  rw [serveRequest, h, raise]

/-- Settles O4: the counts are over the 256 bytes, and a byte's rejection does not depend on the buses. -/
theorem illegalCommandCounts : Obligations.IllegalCommandCounts := by
  refine ⟨by decide +kernel, by decide +kernel, by decide +kernel, by decide +kernel, ?_⟩
  intro c a b s h
  obtain ⟨e, hd⟩ | ⟨op, w, -, hd⟩ := decode_rejects_or_selects (BitVec.ofNat 8 c)
  · exact serveRequest_of_rejected (hd a b) s
  · rw [hd] at h
    exact absurd h Bool.false_ne_true

/-- Settles O5: each written byte is the CMD value WID * 8 + OP of its cell. -/
theorem writtenOutWordsDecode : Obligations.WrittenOutWordsDecode := fun a b =>
  ⟨decode_of_toNat (op := .band) (w := .i8) rfl a b, decode_of_toNat (op := .bor) (w := .u16) rfl a b,
    decode_of_toNat (op := .bxor) (w := .c16) rfl a b, decode_of_toNat (op := .bnot) (w := .i64) rfl a b,
    decode_of_toNat (op := .bshl) (w := .i32) rfl a b, decode_of_toNat (op := .bshr) (w := .u64) rfl a b⟩

/-- Settles O6: an assembled instruction is the cell of its mnemonic on the patterns of its literals. -/
theorem assembledLiteralsArePlacedOnTheBuses : Obligations.AssembledLiteralsArePlacedOnTheBuses := by
  intro op w x y
  rw [assembleOperands, encode_instrOf, busOf_eq_ofInt, busOf_eq_ofInt]

/-- Settles O7: a constructed engine serves its oldest request, and serving runs what it decodes to. -/
theorem stepRunsTheOldestDecodedRequest : Obligations.StepRunsTheOldestDecodedRequest := by
  intro s q qs i hc hq hd
  rw [step_of_pending hc hq, serveRequest, hd]
  rfl

/-- Settles O41: a byte with OP = 3 is rejected or selects a NOT, and no NOT holds a B. -/
theorem notIgnoresB : Obligations.NotIgnoresB := by
  intro c a b b' s hc
  obtain ⟨e, hd⟩ | ⟨op, w, hbyte, hd⟩ := decode_rejects_or_selects c
  · rw [serveRequest_of_rejected (hd a b), serveRequest_of_rejected (hd a b')]
  · have hop := op.code_lt
    obtain rfl : op = .bnot := op.code_eq_three_iff.mp (by omega)
    simp only [serveRequest, hd, instrOf_bnot w a b b']

end Sys2Proof.Machine
end

section
/-! The result bus as an extension of the width's pattern (30_encoding.md R62). -/

namespace Sys2Proof

theorem Width.bits_pos (w : Width) : 0 < w.bits := by cases w <;> decide

theorem Width.bits_le (w : Width) : w.bits ≤ 64 := by cases w <;> decide

end Sys2Proof

namespace Sys2Proof.Machine

theorem setWidth_ofInt {m n : Nat} (h : m ≤ n) (r : Int) :
    (BitVec.ofInt n r).setWidth m = BitVec.ofInt m r := by
  have hdvd : ((2 ^ m : Nat) : Int) ∣ ((2 ^ n : Nat) : Int) :=
    Int.natCast_dvd_natCast.mpr (Nat.pow_dvd_pow 2 h)
  have hpos : (0 : Int) < ((2 ^ n : Nat) : Int) := by positivity
  apply BitVec.eq_of_toNat_eq
  rw [BitVec.toNat_setWidth, BitVec.toNat_ofInt, BitVec.toNat_ofInt]
  calc (r % ((2 ^ n : Nat) : Int)).toNat % 2 ^ m
      = (r % ((2 ^ n : Nat) : Int) % ((2 ^ m : Nat) : Int)).toNat :=
        (Int.toNat_emod (Int.emod_nonneg r hpos.ne') (Int.natCast_nonneg _)).symm
    _ = (r % ((2 ^ m : Nat) : Int)).toNat := by rw [Int.emod_emod_of_dvd r hdvd]

/-- Sign extension keeps a signed value of the narrow width. -/
theorem signExtend_ofInt {n : Nat} (hn : 0 < n) {r : Int} (h0 : -2 ^ (n - 1) ≤ r) (h1 : r < 2 ^ (n - 1))
    (m : Nat) : (BitVec.ofInt n r).signExtend m = BitVec.ofInt m r := by
  rw [BitVec.signExtend, BitVec.toInt_ofInt_eq_self hn h0 h1]

/-- Zero extension keeps an unsigned value of the narrow width. -/
theorem setWidth_ofInt_of_lt {n m : Nat} (hnm : n ≤ m) {r : Int} (h0 : 0 ≤ r)
    (h1 : r < ((2 ^ n : Nat) : Int)) : (BitVec.ofInt n r).setWidth m = BitVec.ofInt m r := by
  lift r to Nat using h0
  rw [BitVec.ofInt_natCast, BitVec.ofInt_natCast,
    BitVec.setWidth_ofNat_of_le_of_lt hnm (by exact_mod_cast h1)]

/-- The extension a width's signedness asks for takes the pattern of a value of its range to the bus
pattern of the value. -/
theorem extend_ofInt {w : Width} {r : Int} (hmin : w.minValue ≤ r) (hmax : r ≤ w.maxValue) :
    (if w.signed then (BitVec.ofInt w.bits r).signExtend 64 else (BitVec.ofInt w.bits r).setWidth 64) =
      BitVec.ofInt 64 r := by
  cases hw : w.signed with
  | false =>
    simp only [Width.minValue, Width.maxValue, hw, Bool.false_eq_true, if_false] at hmin hmax ⊢
    exact setWidth_ofInt_of_lt w.bits_le hmin (Int.lt_of_le_sub_one hmax)
  | true =>
    simp only [Width.minValue, Width.maxValue, hw, if_true, Nat.cast_pow, Nat.cast_ofNat] at hmin hmax ⊢
    exact signExtend_ofInt w.bits_pos hmin (Int.lt_of_le_sub_one hmax) 64

/-- Settles O51: R is the 64-bit pattern of r, and r is the value of its own narrow pattern. -/
theorem responseExtendsTheResultValue : Obligations.ResponseExtendsTheResultValue := by
  intro w r s hmin hmax
  have hlow : (busOf r).setWidth w.bits = BitVec.ofInt w.bits r := by
    rw [busOf_eq_ofInt, setWidth_ofInt w.bits_le]
  refine ⟨busOf r, rfl, toNat_busOf r, hlow, ?_⟩
  rw [hlow, extend_ofInt hmin hmax, busOf_eq_ofInt]

end Sys2Proof.Machine
end

section
/-! The modular-arithmetic core in the words of its rules (40_primitives.md R70 to R76): floor division as
the floor of a rational, true modulo by the sign of its divisor, and `tobit`, `trunc` and `operand` as
the signed and unsigned readings of bit vectors. -/

namespace Sys2Proof.Machine

/-! ## Division and modulo, for divisors of both signs (R70 to R72) -/

/-- Both sides negate numerator and divisor together, so a divisor below 0 is one above 0. -/
theorem fdiv_eq_floor (a d : Int) : fdiv a d = ⌊(a : ℚ) / (d : ℚ)⌋ := by
  obtain ⟨n, rfl | rfl⟩ := d.eq_nat_or_neg
  · rw [fdiv, Int.fdiv_eq_ediv_of_nonneg a (Int.natCast_nonneg n), Int.cast_natCast,
      Rat.floor_intCast_div_natCast]
  · rw [fdiv, ← Int.neg_fdiv_neg, neg_neg, Int.fdiv_eq_ediv_of_nonneg _ (Int.natCast_nonneg n),
      Int.cast_neg, Int.cast_natCast, div_neg, ← neg_div, ← Int.cast_neg, Rat.floor_intCast_div_natCast]

/-- Settles O23: no sign is left out, and 0 as a divisor gives 0 on both sides. -/
theorem floorDivisionIsTheFloorOfTheQuotient : Obligations.FloorDivisionIsTheFloorOfTheQuotient :=
  fun a d _ => fdiv_eq_floor a d

theorem mod_eq_fmod (a d : Int) : mod a d = a.fmod d := (Int.fmod_def a d).symm

theorem mod_neg_neg (a d : Int) : mod (-a) (-d) = -mod a d := by
  rw [mod_eq_fmod, mod_eq_fmod, Int.neg_fmod_neg]

theorem mod_range_of_pos (a : Int) {d : Int} (h : 0 < d) : 0 ≤ mod a d ∧ mod a d < d := by
  rw [mod_eq_fmod]
  exact ⟨Int.fmod_nonneg_of_pos a h, Int.fmod_lt_of_pos a h⟩

/-- Settles O24: the range under a divisor below 0 is the one above 0, negated. -/
theorem trueModuloFollowsTheDivisor : Obligations.TrueModuloFollowsTheDivisor := by
  intro a d _
  refine ⟨by rw [mod, fdiv_eq_floor], mod_range_of_pos a, fun hneg => ?_⟩
  have hrange := mod_range_of_pos (-a) (Int.neg_pos_of_neg hneg)
  rw [mod_neg_neg] at hrange
  omega

/-! ## Normalisation and narrowing as readings of a bit vector (R73, R75, R76) -/

theorem tobit_eq_toInt (v : Int) : tobit v = (BitVec.ofInt 32 v).toInt := by
  rw [tobit_eq_ite, BitVec.toInt_ofInt, Int.bmod_def]
  split <;> split <;> omega

/-- Settles O25: `tobit` is the balanced remainder, which is the signed reading. -/
theorem tobitIsTheCanonicalResidue : Obligations.TobitIsTheCanonicalResidue := by
  intro v
  obtain ⟨hmin, hmax⟩ := tobit_range v
  refine ⟨hmin, hmax, ?_, tobit_eq_toInt v⟩
  rw [tobit_eq_toInt, BitVec.toInt_ofInt]
  exact Int.dvd_self_sub_bmod

/-- `tobit` keeps the 32-bit pattern. -/
@[simp] theorem ofInt_tobit (v : Int) : BitVec.ofInt 32 (tobit v) = BitVec.ofInt 32 v := by
  rw [tobit_eq_toInt, BitVec.ofInt_toInt]

theorem tobit_eq_self {v : Int} (hmin : -2147483648 ≤ v) (hmax : v ≤ 2147483647) : tobit v = v := by
  rw [tobit_eq_ite]
  split <;> omega

/-- The non-negative integer with the pattern `p` normalises to the signed reading of `p`. -/
theorem tobit_toNat (p : BitVec 32) : tobit (p.toNat : Int) = p.toInt := by
  rw [tobit_eq_toInt, BitVec.ofInt_natCast, BitVec.ofNat_toNat, BitVec.setWidth_eq]

/-- `sext_n` of the unsigned reading of a pattern is its signed reading (R75). -/
theorem sext_toNat {n : Nat} (hn : 0 < n) (p : BitVec n) : sext n (p.toNat : Int) = p.toInt := by
  obtain ⟨m, rfl⟩ := Nat.exists_eq_add_one.mpr hn
  rw [sext, BitVec.toInt_eq_toNat_cond, Nat.add_sub_cancel, Nat.pow_succ]
  split <;> split <;> omega

/-- `mod` by 2^n is the unsigned reading of the pattern of n bits. -/
theorem mod_eq_toNat_ofInt (n : Nat) (v : Int) :
    mod v ((2 ^ n : Nat) : Int) = ((BitVec.ofInt n v).toNat : Int) := by
  have hpos : (0 : Int) < ((2 ^ n : Nat) : Int) := by positivity
  rw [mod_two_pow, BitVec.toNat_ofInt, Int.toNat_of_nonneg (Int.emod_nonneg v hpos.ne')]

theorem trunc_eq_ite (w : Width) (v : Int) :
    trunc w v =
      if w.signed then (BitVec.ofInt w.bits v).toInt else ((BitVec.ofInt w.bits v).toNat : Int) := by
  rw [trunc, mod_eq_toNat_ofInt, sext_toNat w.bits_pos]

/-- `trunc_W` keeps the pattern of N(W) bits. -/
@[simp] theorem ofInt_trunc (w : Width) (v : Int) :
    BitVec.ofInt w.bits (trunc w v) = BitVec.ofInt w.bits v := by
  rw [trunc_eq_ite]
  split
  · rw [BitVec.ofInt_toInt]
  · rw [BitVec.ofInt_natCast, BitVec.ofNat_toNat, BitVec.setWidth_eq]

theorem trunc_congr {w : Width} {x y : Int} (h : BitVec.ofInt w.bits x = BitVec.ofInt w.bits y) :
    trunc w x = trunc w y := by
  rw [trunc_eq_ite, trunc_eq_ite, h]

theorem trunc_eq_self {w : Width} {v : Int} (hmin : w.minValue ≤ v) (hmax : v ≤ w.maxValue) :
    trunc w v = v := by
  rw [trunc_eq_ite]
  cases hw : w.signed with
  | true =>
    simp only [Width.minValue, Width.maxValue, hw, if_true, Nat.cast_pow, Nat.cast_ofNat] at hmin hmax ⊢
    exact BitVec.toInt_ofInt_eq_self w.bits_pos hmin (Int.lt_of_le_sub_one hmax)
  | false =>
    simp only [Width.minValue, Width.maxValue, hw, Bool.false_eq_true, if_false] at hmin hmax ⊢
    rw [← mod_eq_toNat_ofInt, mod_two_pow, Int.emod_eq_of_lt hmin (Int.lt_of_le_sub_one hmax)]

theorem trunc_i32 (v : Int) : trunc .i32 v = tobit v := (trunc_eq_ite .i32 v).trans (tobit_eq_toInt v).symm

/-- Settles O27: each clause is a reading of the pattern of N(W) bits. -/
theorem truncKeepsTheLowBits : Obligations.TruncKeepsTheLowBits :=
  ⟨trunc_eq_ite, fun _ _ => trunc_eq_self, trunc_i32, by decide⟩

/-! ## Conversion of operands and of results (R82, R83, R85) -/

/-- The operand value is the reading of the low N(W) bits of the bus (30_encoding.md R56). -/
theorem operand_eq_ite (w : Width) (x : Bus) :
    operand w x = if w.signed then (x.setWidth w.bits).toInt else ((x.setWidth w.bits).toNat : Int) := by
  rw [operand, trunc_eq_ite, BitVec.ofInt_natCast, BitVec.ofNat_toNat]

/-- The low bits of an operand, up to N(W), are those of the bus. -/
theorem ofInt_operand {n : Nat} {w : Width} (h : n ≤ w.bits) (x : Bus) :
    BitVec.ofInt n (operand w x) = x.setWidth n := by
  rw [operand, ← setWidth_ofInt h, ofInt_trunc, setWidth_ofInt h, BitVec.ofInt_natCast, BitVec.ofNat_toNat]

/-- At 32 bits or more the canonical word is the signed reading of bits [31:0] of the bus. -/
theorem tobit_operand {w : Width} (h : 32 ≤ w.bits) (x : Bus) :
    tobit (operand w x) = (x.setWidth 32).toInt := by
  rw [tobit_eq_toInt, ofInt_operand h]

/-- Where every value of the width is canonical, the canonical word is the operand value. -/
theorem tobit_operand_eq_self {w : Width} (hmin : -2147483648 ≤ w.minValue) (hmax : w.maxValue ≤ 2147483647)
    (x : Bus) : tobit (operand w x) = operand w x := by
  obtain ⟨hlo, hhi⟩ := trunc_range w (x.toNat : Int)
  exact tobit_eq_self (hmin.trans hlo) (hhi.trans hmax)

theorem tobit_of_unsigned32 {v : Int} (hmin : 0 ≤ v) (hmax : v ≤ 4294967295) :
    tobit v = if 2147483648 ≤ v then v - 4294967296 else v := by
  rw [tobit_eq_ite, Int.emod_eq_of_lt hmin (Int.lt_of_le_sub_one hmax)]

/-- Settles O28: six widths hold canonical values only; u32 and the 64-bit widths are normalised. -/
theorem operandConversionPerWidth : Obligations.OperandConversionPerWidth := by
  intro x
  have i8 := operand_eq_ite .i8 x
  have i16 := operand_eq_ite .i16 x
  have u8 := operand_eq_ite .u8 x
  have u16 := operand_eq_ite .u16 x
  have c16 := operand_eq_ite .c16 x
  obtain ⟨hmin, hmax⟩ := trunc_range .u32 (x.toNat : Int)
  exact ⟨(tobit_operand_eq_self (by decide) (by decide) x).trans i8, i8,
    (tobit_operand_eq_self (by decide) (by decide) x).trans i16, i16,
    (tobit_operand_eq_self (by decide) (by decide) x).trans u8, u8,
    (tobit_operand_eq_self (by decide) (by decide) x).trans u16, u16,
    (tobit_operand_eq_self (by decide) (by decide) x).trans c16, c16,
    tobit_operand_eq_self (by decide) (by decide) x, operand_eq_ite .i32 x, operand_eq_ite .u32 x,
    tobit_of_unsigned32 hmin hmax, tobit_operand (by decide) x, tobit_operand (by decide) x⟩

/-- Settles O29: narrowing keeps the pattern and lands in the width's range; i64 holds every canonical value. -/
theorem resultConversionPerWidth : Obligations.ResultConversionPerWidth := by
  intro r hmin hmax
  refine ⟨fun w hw => ⟨?_, trunc_range w r⟩, trunc_eq_self (le_trans (by decide) hmin)
    (hmax.trans (by decide)), rfl⟩
  rw [ofInt_trunc, setWidth_ofInt hw]

/-- Settles O30: `trunc_W` reads its low N(W) bits, and `tobit` keeps the low 32. -/
theorem narrowTruncIgnoresTobit : Obligations.NarrowTruncIgnoresTobit := by
  refine fun w hw => ⟨fun x => trunc_congr ?_, fun x y => trunc_congr⟩
  rw [← setWidth_ofInt hw, ofInt_tobit, setWidth_ofInt hw]

end Sys2Proof.Machine
end

section
/-! Bits of an integer: bit `i` of its two's complement as the parity of its floor quotient by 2^i, read from
a bit vector and through the table of R21 (40_primitives.md R74). -/

namespace Sys2Proof.Machine

/-- Reduction modulo 2^n keeps the bits below n. -/
theorem emod_two_pow_ediv_emod_two {i n : Nat} (h : i < n) (v : Int) :
    v % 2 ^ n / 2 ^ i % 2 = v / 2 ^ i % 2 := by
  obtain ⟨k, rfl⟩ := Nat.exists_eq_add_of_lt h
  have hsplit : (2 : Int) ^ (i + k + 1) * (v / 2 ^ (i + k + 1)) =
      2 ^ i * (2 * (2 ^ k * (v / 2 ^ (i + k + 1)))) := by ring
  rw [Int.emod_def v, hsplit, Int.sub_mul_ediv_left _ _ (by positivity), Int.sub_mul_emod_self_left]

theorem getLsbD_ofInt {i n : Nat} (h : i < n) (v : Int) :
    (BitVec.ofInt n v).getLsbD i = decide (v / 2 ^ i % 2 = 1) := by
  have hpattern : ((BitVec.ofInt n v).toNat : Int) = v % 2 ^ n := by
    rw [← mod_eq_toNat_ofInt, mod_two_pow, Nat.cast_pow, Nat.cast_ofNat]
  rw [← BitVec.testBit_toNat, Nat.testBit_eq_decide_div_mod_eq, ← emod_two_pow_ediv_emod_two h, ← hpattern]
  norm_cast

theorem bit_contents (v : Int) (i : Fin 32) : bit pow2Contents v i = v / 2 ^ i.val % 2 := by
  rw [bit, readPow2_contents, fdiv_of_pos v (by positivity), mod_of_pos _ (by decide)]

theorem bit_contents_eq_one_iff (v : Int) (i : Fin 32) :
    bit pow2Contents v i = 1 ↔ (BitVec.ofInt 32 v).getLsbD i.val = true := by
  rw [bit_contents, getLsbD_ofInt i.isLt, decide_eq_true_iff]

/-- Settles O26: entry `i` of the table is 2^i, and the parity of the quotient is bit `i`. -/
theorem bitExtractionIsTheTwosComplementBit : Obligations.BitExtractionIsTheTwosComplementBit := by
  intro v i
  refine ⟨by rw [bit, readPow2_contents, Nat.cast_pow, Nat.cast_ofNat], ?_⟩
  split
  next hset => exact (bit_contents_eq_one_iff v i).mpr hset
  next hclear =>
    have hne := mt (bit_contents_eq_one_iff v i).mp hclear
    rw [bit_contents] at hne ⊢
    omega

end Sys2Proof.Machine
end

section
/-! The canonical operations over the table of R21 as native operations on 32-bit patterns (41_and_or.md
R90, R92; 42_xor.md R120; 43_not.md R140; 44_shift.md R162). The three loops share one invariant: before
index i the accumulator holds the low i bits of the native result. -/

namespace Sys2Proof.Machine

/-! ## The loop over the bits -/

/-- A property that the initial value has at 0 and that the body carries from `i` to `i + 1` holds after
any number of rounds. -/
theorem take_finRange_foldl_induction {α : Type} {init : α} {body : α → Fin 32 → α} (P : Nat → α → Prop)
    (hinit : P 0 init) (hbody : ∀ (i : Fin 32) (a : α), P i.val a → P (i.val + 1) (body a i)) {k : Nat}
    (hk : k ≤ 32) : P k (((List.finRange 32).take k).foldl body init) := by
  induction k with
  | zero => exact hinit
  | succ k ih =>
    rw [List.take_succ_eq_append_getElem (by rwa [List.length_finRange]), List.foldl_concat,
      List.getElem_finRange]
    exact hbody ⟨k, hk⟩ _ (ih (Nat.le_of_succ_le hk))

theorem forBits_induction {α : Type} {init : α} {body : α → Fin 32 → α} (P : Nat → α → Prop)
    (hinit : P 0 init) (hbody : ∀ (i : Fin 32) (a : α), P i.val a → P (i.val + 1) (body a i)) :
    P 32 (forBits init body) :=
  take_finRange_foldl_induction P hinit hbody (Nat.le_refl 32)

/-- The low `i` bits of a pattern as an integer: what the accumulator holds before index `i`. -/
def lowBits (p : BitVec 32) (i : Nat) : Int := ((p.toNat % 2 ^ i : Nat) : Int)

theorem lowBits_zero (p : BitVec 32) : lowBits p 0 = 0 := by
  rw [lowBits, pow_zero, Nat.mod_one, Nat.cast_zero]

theorem lowBits_all (p : BitVec 32) : lowBits p 32 = (p.toNat : Int) := by
  rw [lowBits, Nat.mod_eq_of_lt p.isLt]

theorem lowBits_succ (p : BitVec 32) (i : Fin 32) :
    lowBits p (i.val + 1) =
      if p.getLsbD i.val then lowBits p i.val + readPow2 pow2Contents i else lowBits p i.val := by
  have hsplit : lowBits p (i.val + 1) = lowBits p i.val + 2 ^ i.val * ((p.toNat / 2 ^ i.val % 2 : Nat) : Int) := by
    rw [lowBits, lowBits, pow_succ, Nat.mod_mul]
    push_cast
    rfl
  rw [hsplit, readPow2_contents, ← BitVec.testBit_toNat, Nat.testBit_eq_decide_div_mod_eq]
  obtain h | h := Nat.mod_two_eq_zero_or_one (p.toNat / 2 ^ i.val) <;> simp [h]

/-- A loop that adds entry `i` exactly at the set bits of `p` ends with `p`. -/
theorem forBits_eq_toNat {p : BitVec 32} {body : Int → Fin 32 → Int}
    (h : ∀ acc i, body acc i = if p.getLsbD i.val then acc + readPow2 pow2Contents i else acc) :
    forBits 0 body = (p.toNat : Int) := by
  have hloop : forBits 0 body = lowBits p 32 :=
    forBits_induction (fun i acc => acc = lowBits p i) (lowBits_zero p).symm
      (fun i acc hacc => by rw [h, hacc, lowBits_succ])
  rw [hloop, lowBits_all]

/-! ## AND and OR (R90, R92) -/

theorem bAnd_contents (l r : Int) :
    bAnd pow2Contents l r = (BitVec.ofInt 32 l &&& BitVec.ofInt 32 r).toInt := by
  rw [bAnd, ← tobit_toNat]
  refine congrArg tobit (forBits_eq_toNat fun acc i => ?_)
  simp only [bit_contents_eq_one_iff, BitVec.getLsbD_and, Bool.and_eq_true]

theorem bOr_contents (l r : Int) :
    bOr pow2Contents l r = (BitVec.ofInt 32 l ||| BitVec.ofInt 32 r).toInt := by
  rw [bOr, ← tobit_toNat]
  refine congrArg tobit (forBits_eq_toNat fun acc i => ?_)
  simp only [bit_contents_eq_one_iff, BitVec.getLsbD_or, Bool.or_eq_true]

/-! ## XOR (R120) -/

theorem mod_two (v : Int) : mod v 2 = v % 2 := mod_of_pos v (by decide)

theorem fdiv_two (v : Int) : fdiv v 2 = v / 2 := fdiv_of_pos v (by decide)

theorem xorStep_left (t : PowTable) (v : XorLoop) (i : Fin 32) : (xorStep t v i).left = v.left / 2 := by
  simp only [xorStep, mod_two, fdiv_two]
  split <;> omega

/-- The decrement that R120 leaves out where both bits are 1 makes no difference to the floor quotient. -/
theorem xorStep_right (t : PowTable) (v : XorLoop) (i : Fin 32) : (xorStep t v i).right = v.right / 2 := by
  simp only [xorStep, mod_two, fdiv_two]
  split <;> omega

theorem xorStep_acc (t : PowTable) (v : XorLoop) (i : Fin 32) :
    (xorStep t v i).acc = if v.left % 2 ≠ v.right % 2 then v.acc + readPow2 t i else v.acc := by
  simp only [xorStep, mod_two]
  exact if_congr (by omega) rfl rfl

/-- The variables of the XOR loop on `l` and `r` before index `i`. -/
structure XorLoop.At (l r : Int) (i : Nat) (v : XorLoop) : Prop where
  acc : v.acc = lowBits (BitVec.ofInt 32 l ^^^ BitVec.ofInt 32 r) i
  left : v.left = l / 2 ^ i
  right : v.right = r / 2 ^ i

theorem XorLoop.at_zero (l r : Int) : XorLoop.At l r 0 ⟨0, l, r⟩ where
  acc := (lowBits_zero _).symm
  left := by rw [pow_zero, Int.ediv_one]
  right := by rw [pow_zero, Int.ediv_one]

theorem XorLoop.At.step {l r : Int} {v : XorLoop} (i : Fin 32) (h : XorLoop.At l r i.val v) :
    XorLoop.At l r (i.val + 1) (xorStep pow2Contents v i) where
  acc := by
    have hbit : (BitVec.ofInt 32 l ^^^ BitVec.ofInt 32 r).getLsbD i.val = true ↔
        v.left % 2 ≠ v.right % 2 := by
      rw [BitVec.getLsbD_xor, getLsbD_ofInt i.isLt, getLsbD_ofInt i.isLt, h.left, h.right, bne_iff_ne,
        ne_eq, decide_eq_decide]
      omega
    rw [xorStep_acc, lowBits_succ, h.acc, if_congr hbit rfl rfl]
  left := by rw [xorStep_left, h.left, Int.ediv_ediv_of_nonneg (by positivity), pow_succ]
  right := by rw [xorStep_right, h.right, Int.ediv_ediv_of_nonneg (by positivity), pow_succ]

theorem xorLoop_at (l r : Int) {i : Nat} (hi : i ≤ 32) :
    XorLoop.At l r i (((List.finRange 32).take i).foldl (xorStep pow2Contents) ⟨0, l, r⟩) :=
  take_finRange_foldl_induction (XorLoop.At l r) (XorLoop.at_zero l r) (fun i _ => XorLoop.At.step i) hi

theorem bXor_contents (l r : Int) :
    bXor pow2Contents l r = (BitVec.ofInt 32 l ^^^ BitVec.ofInt 32 r).toInt := by
  have hacc := (xorLoop_at l r (Nat.le_refl 32)).acc
  rw [bXor, ← tobit_toNat, ← lowBits_all, ← hacc]
  rfl

/-! ## NOT and the left shift (R140, R162) -/

/-- NOT reads no table: the pattern of MODM - v is the complement of the pattern of v. -/
theorem bNot_eq_toInt (v : Int) : bNot v = (~~~(BitVec.ofInt 32 v)).toInt := by
  rw [bNot, ← tobit_toNat]
  have hmod : mod v Config.modulus = ((BitVec.ofInt 32 v).toNat : Int) := mod_eq_toNat_ofInt 32 v
  have hlt := (BitVec.ofInt 32 v).isLt
  refine congrArg tobit ?_
  rw [hmod, BitVec.toNat_not, Config.modulusMinusOne]
  omega

/-- No entry reaches MOD, so the reduction in R162 changes none. -/
theorem mod_readPow2_contents : ∀ i : Fin 32,
    mod (readPow2 pow2Contents i) Config.modulus = ((2 ^ i.val : Nat) : Int) := by decide

theorem shlBy_contents (v : Int) (i : Fin 32) :
    shlBy pow2Contents v i = (BitVec.ofInt 32 v <<< i.val).toInt := by
  have hentry : BitVec.twoPow 32 i.val = BitVec.ofNat 32 (2 ^ i.val) :=
    BitVec.eq_of_toNat_eq (by rw [BitVec.toNat_twoPow, BitVec.toNat_ofNat])
  rw [shlBy, mod_readPow2_contents, tobit_eq_toInt, BitVec.ofInt_mul, BitVec.ofInt_natCast,
    BitVec.shiftLeft_eq_mul_twoPow, hentry]

end Sys2Proof.Machine
end

section
/-! The amount of a shift (30_encoding.md R57, 44_shift.md R164): B as the sign extension of its own low word, and the
reduction of an amount that is not negative. -/

namespace Sys2Proof.Machine

theorem sext_slice_low (b : Bus) : sext 32 (slice (b.toNat : Int) 31 0) = (b.setWidth 32).toInt := by
  have hslice : slice (b.toNat : Int) 31 0 = ((b.setWidth 32).toNat : Int) := by
    rw [slice, pow_zero, Nat.cast_one, fdiv_of_pos _ Int.one_pos, Int.ediv_one, mod_eq_toNat_ofInt,
      BitVec.ofInt_natCast, BitVec.ofNat_toNat]
  rw [hslice, sext_toNat (by decide)]

/-- The test of R57 on B as a pattern: B is the sign extension of its bits [31:0]. -/
theorem eq_mod_iff_signExtend_eq (b : Bus) :
    (b.toNat : Int) = mod (b.setWidth 32).toInt Config.busModulus ↔ (b.setWidth 32).signExtend 64 = b := by
  rw [← toNat_busOf, busOf_eq_ofInt, Int.natCast_inj, ← BitVec.signExtend, BitVec.toNat_inj, eq_comm]

theorem shiftAmount_eq_ok {b : Bus} (h : (b.setWidth 32).signExtend 64 = b) :
    shiftAmount b = .ok (b.setWidth 32).toInt := by
  obtain ⟨-, hne⟩ | ⟨hok, -⟩ := shiftAmount_cases b
  · rw [sext_slice_low] at hne
    exact absurd ((eq_mod_iff_signExtend_eq b).mpr h) hne
  · rw [hok, sext_slice_low]

/-- The bus pattern of a signed 32-bit amount is read back as that amount. -/
theorem shiftAmount_ofInt {n : Int} (hmin : -2147483648 ≤ n) (hmax : n ≤ 2147483647) :
    shiftAmount (BitVec.ofInt 64 n) = .ok n := by
  have hlow : (BitVec.ofInt 64 n).setWidth 32 = BitVec.ofInt 32 n := setWidth_ofInt (by decide) n
  have hlt : n < 2147483648 := Int.lt_add_one_of_le hmax
  rw [shiftAmount_eq_ok, hlow, BitVec.toInt_ofInt_eq_self (by decide) hmin hlt]
  rw [hlow, signExtend_ofInt (by decide) hmin hlt]

theorem shamt_of_nonneg {w : Width} {n : Nat} (k : ShiftKind) (h : n % w.bits < 32) :
    shamt k w (n : Int) = .ok (k, ⟨n % w.bits, h⟩) := by
  have hmod : (mod (n : Int) (w.bits : Int)).toNat = n % w.bits := by
    rw [mod_of_pos _ (Int.natCast_pos.mpr w.bits_pos), ← Int.natCast_emod, Int.toNat_natCast]
  obtain ⟨hmin, -⟩ | ⟨hneg, -⟩ | ⟨-, hs⟩ := shamt_cases k w (n : Int)
  · exact absurd (hmin ▸ Int.natCast_nonneg n) (by decide)
  · exact absurd hneg (Int.natCast_nonneg n).not_gt
  · obtain ⟨-, hbig⟩ | ⟨i, hr, hi⟩ := reduceAmount_cases k w n n
    · omega
    · rw [hs, hr, show i = ⟨n % w.bits, h⟩ from Fin.ext (hi.trans hmod)]

end Sys2Proof.Machine
end

section
/-! The 64-bit widths (40_primitives.md R84): an operation works on bits [31:0] of its operands alone, so R is
the sign extension of the low word of the native result. -/

namespace Sys2Proof.Machine

/-! ## The canonical value at 32 bits or more is the low word of the native result -/

section

variable {w : Width} (h : 32 ≤ w.bits) (a b : Bus)

include h

theorem canonicalValue_band :
    canonicalValue .band w pow2Contents a b = .ok ((a &&& b).setWidth 32).toInt := by
  rw [canonicalValue, bAnd_contents, ofInt_tobit, ofInt_tobit, ofInt_operand h, ofInt_operand h,
    BitVec.setWidth_and]

theorem canonicalValue_bor :
    canonicalValue .bor w pow2Contents a b = .ok ((a ||| b).setWidth 32).toInt := by
  rw [canonicalValue, bOr_contents, ofInt_tobit, ofInt_tobit, ofInt_operand h, ofInt_operand h,
    BitVec.setWidth_or]

theorem canonicalValue_bxor :
    canonicalValue .bxor w pow2Contents a b = .ok ((a ^^^ b).setWidth 32).toInt := by
  rw [canonicalValue, bXor_contents, ofInt_tobit, ofInt_tobit, ofInt_operand h, ofInt_operand h,
    BitVec.setWidth_xor]

theorem canonicalValue_bnot (t : PowTable) :
    canonicalValue .bnot w t a b = .ok ((~~~a).setWidth 32).toInt := by
  rw [canonicalValue, bNot_eq_toInt, ofInt_tobit, ofInt_operand h, BitVec.setWidth_not (by decide)]

theorem canonicalValue_bshl {n : Nat} (hn : n < 2147483648) (hfits : n % w.bits < 32) :
    canonicalValue .bshl w pow2Contents a (BitVec.ofNat 64 n) =
      .ok ((a <<< (n % w.bits)).setWidth 32).toInt := by
  have hamount : shiftAmount (BitVec.ofNat 64 n) = .ok (n : Int) := by
    rw [← BitVec.ofInt_natCast, shiftAmount_ofInt (by omega) (by omega)]
  simp only [canonicalValue, shiftValue, hamount, shamt_of_nonneg .shl hfits, shiftBy]
  rw [shlBy_contents, ofInt_tobit, ofInt_operand h, BitVec.setWidth_shiftLeft_of_le (by decide)]

end

/-! ## The response at a 64-bit width -/

/-- At 64 bits R is the sign extension of the canonical result, for i64 and u64 alike (R83). -/
theorem responseAt_toInt {w : Width} (h : w.bits = 64) (p : BitVec 32) :
    responseAt w (.ok p.toInt) = .ok (p.signExtend 64) := by
  have hbus : BitVec.ofInt 64 (trunc w p.toInt) = BitVec.ofInt 64 p.toInt := h ▸ ofInt_trunc w p.toInt
  rw [responseAt, busOf_eq_ofInt, hbus, BitVec.signExtend]

/-- An instruction whose canonical value is the low word of `x` answers `x` exactly when `x` is the sign
extension of that word. -/
theorem exec_native_iff {op : Operation} {w : Width} {a b x : Bus} {s : State} (hw : w.bits = 64)
    (hs : s.pow2 = pow2Contents) (hvalue : canonicalValue op w pow2Contents a b = .ok (x.setWidth 32).toInt) :
    exec (instrOf op w a b) s = .next { s with response := some (.ok x) } ↔
      (x.setWidth 32).signExtend 64 = x := by
  have hexec : exec (instrOf op w a b) s =
      .next (s.withResponse (.ok ((x.setWidth 32).signExtend 64))) := by
    rw [exec_instrOf, hs, hvalue, responseAt_toInt hw]
  rw [hexec]
  constructor
  · intro hnext
    exact Response.ok.inj (Option.some.inj (congrArg responseOf hnext))
  · intro hext
    rw [hext]
    rfl

/-- Settles O52: each canonical value is the low word of the native result. -/
theorem wideResultsAreNativeExactlyOnSignExtensions :
    Obligations.WideResultsAreNativeExactlyOnSignExtensions := by
  intro s a b n hs hn hfits
  have hlt : n % 64 < 32 := Nat.lt_succ_of_le hfits
  exact ⟨exec_native_iff (op := .band) (w := .i64) rfl hs (canonicalValue_band (by decide) a b),
    exec_native_iff (op := .band) (w := .u64) rfl hs (canonicalValue_band (by decide) a b),
    exec_native_iff (op := .bor) (w := .i64) rfl hs (canonicalValue_bor (by decide) a b),
    exec_native_iff (op := .bor) (w := .u64) rfl hs (canonicalValue_bor (by decide) a b),
    exec_native_iff (op := .bxor) (w := .i64) rfl hs (canonicalValue_bxor (by decide) a b),
    exec_native_iff (op := .bxor) (w := .u64) rfl hs (canonicalValue_bxor (by decide) a b),
    exec_native_iff (op := .bnot) (w := .i64) (b := b) rfl hs (canonicalValue_bnot (by decide) a b _),
    exec_native_iff (op := .bnot) (w := .u64) (b := b) rfl hs (canonicalValue_bnot (by decide) a b _),
    exec_native_iff (op := .bshl) (w := .i64) rfl hs (canonicalValue_bshl (by decide) a hn hlt),
    exec_native_iff (op := .bshl) (w := .u64) rfl hs (canonicalValue_bshl (by decide) a hn hlt)⟩

end Sys2Proof.Machine
end

section
/-! AND and OR (41_and_or.md): the scenarios of R91 and R93, and the response of every width. A canonical word
has the low bits of its operand up to N(W), so at each width R is the extension of a native result. -/

namespace Sys2Proof

theorem Width.bits_cases (w : Width) : w.bits = 64 ∨ w.bits ≤ 32 := by cases w <;> decide

end Sys2Proof

namespace Sys2Proof.Machine

/-! ## The canonical operations (R91, R93) -/

theorem bAnd_bNot (v : Int) : bAnd pow2Contents v (bNot v) = 0 := by
  rw [bAnd_contents, bNot_eq_toInt, BitVec.ofInt_toInt, BitVec.and_not_self]
  rfl

theorem bOr_bNot (v : Int) : bOr pow2Contents v (bNot v) = -1 := by
  rw [bOr_contents, bNot_eq_toInt, BitVec.ofInt_toInt, BitVec.or_not_self]
  rfl

/-- Settles O31: the loop adds entry `i` exactly where both patterns have bit `i`. -/
theorem canonicalAndIsNativeAnd : Obligations.CanonicalAndIsNativeAnd :=
  ⟨bAnd_contents, fun a _ _ => bAnd_bNot a, (bAnd_contents 12 10).trans (by decide)⟩

/-- Settles O32: the loop adds entry `i` exactly where either pattern has bit `i`. -/
theorem canonicalOrIsNativeOr : Obligations.CanonicalOrIsNativeOr :=
  ⟨bOr_contents, fun a _ _ => bOr_bNot a, (bOr_contents 12 10).trans (by decide)⟩

/-! ## The response at a width, for a native result on the buses (R62, R83) -/

/-- R at a width for the native 64-bit result `x`: the extension of its low N(W) bits by signedness, and at
the 64-bit widths the sign extension of its bits [31:0]. -/
def nativeBus (w : Width) (x : Bus) : Bus :=
  if w.bits = 64 then (x.setWidth 32).signExtend 64
  else if w.signed then (x.setWidth w.bits).signExtend 64
  else (x.setWidth w.bits).setWidth 64

/-- The response depends on the low N(W) bits of the canonical value alone. -/
theorem responseAt_ok_eq_extension (w : Width) (v : Int) :
    responseAt w (.ok v) =
      .ok (if w.signed then (BitVec.ofInt w.bits v).signExtend 64 else (BitVec.ofInt w.bits v).setWidth 64) := by
  obtain ⟨hmin, hmax⟩ := trunc_range w v
  rw [responseAt, busOf_eq_ofInt, ← extend_ofInt hmin hmax, ofInt_trunc]

/-- A canonical word that agrees with `x` on the low N(W) bits, or on all its 32, is answered as `x` is. -/
theorem responseAt_eq_nativeBus {w : Width} {p : BitVec 32} {x : Bus}
    (h : ∀ n ≤ 32, n ≤ w.bits → p.setWidth n = x.setWidth n) :
    responseAt w (.ok p.toInt) = .ok (nativeBus w x) := by
  obtain hwide | hnarrow := w.bits_cases
  · have hword : p = x.setWidth 32 := by
      rw [← h 32 le_rfl (hwide ▸ by decide), BitVec.setWidth_eq]
    rw [responseAt_toInt hwide, nativeBus, if_pos hwide, hword]
  · have hlow : BitVec.ofInt w.bits p.toInt = x.setWidth w.bits := by
      rw [← h w.bits hnarrow le_rfl, ← setWidth_ofInt hnarrow, BitVec.ofInt_toInt]
    have hbits : w.bits ≠ 64 := by omega
    rw [responseAt_ok_eq_extension, nativeBus, if_neg hbits, hlow]

/-- The canonical word of an operand has the low bits of the bus, up to N(W). -/
theorem setWidth_ofInt_tobit_operand {n : Nat} {w : Width} (h32 : n ≤ 32) (hw : n ≤ w.bits) (x : Bus) :
    (BitVec.ofInt 32 (tobit (operand w x))).setWidth n = x.setWidth n := by
  rw [ofInt_tobit, setWidth_ofInt h32, ofInt_operand hw]

/-! ## The nine AND and the nine OR instructions (R94 to R111) -/

theorem exec_band_native {s : State} (hs : s.pow2 = pow2Contents) (w : Width) (a b : Bus) :
    exec (instrOf .band w a b) s = .next (s.withResponse (.ok (nativeBus w (a &&& b)))) := by
  rw [exec_instrOf, hs, canonicalValue, bAnd_contents, responseAt_eq_nativeBus fun n h32 hw => ?_]
  rw [BitVec.setWidth_and, BitVec.setWidth_and, setWidth_ofInt_tobit_operand h32 hw,
    setWidth_ofInt_tobit_operand h32 hw]

theorem exec_bor_native {s : State} (hs : s.pow2 = pow2Contents) (w : Width) (a b : Bus) :
    exec (instrOf .bor w a b) s = .next (s.withResponse (.ok (nativeBus w (a ||| b)))) := by
  rw [exec_instrOf, hs, canonicalValue, bOr_contents, responseAt_eq_nativeBus fun n h32 hw => ?_]
  rw [BitVec.setWidth_or, BitVec.setWidth_or, setWidth_ofInt_tobit_operand h32 hw,
    setWidth_ofInt_tobit_operand h32 hw]

/-- Settles O37: each clause is the native AND at one width. -/
theorem andAtEveryWidth : Obligations.AndAtEveryWidth := by
  intro s a b hs
  have hband (w : Width) := exec_band_native hs w a b
  exact ⟨hband .i8, hband .u8, hband .i16, hband .u16, hband .i32, hband .u32, hband .i64, hband .u64,
    hband .c16⟩

/-- Settles O38: each clause is the native OR at one width. -/
theorem orAtEveryWidth : Obligations.OrAtEveryWidth := by
  intro s a b hs
  have hbor (w : Width) := exec_bor_native hs w a b
  exact ⟨hbor .i8, hbor .u8, hbor .i16, hbor .u16, hbor .i32, hbor .u32, hbor .i64, hbor .u64, hbor .c16⟩

end Sys2Proof.Machine
end

section
/-! XOR (42_xor.md): the values the loop of R120 holds along the way, the scenarios of R121, and the response
of every width. -/

namespace Sys2Proof.Machine

/-! ## The canonical operation (R121) -/

theorem fdiv_two_pow (v : Int) (i : Nat) : fdiv v ((2 ^ i : Nat) : Int) = v / 2 ^ i := by
  rw [fdiv_of_pos v (by positivity), Nat.cast_pow, Nat.cast_ofNat]

theorem bXor_self (v : Int) : bXor pow2Contents v v = 0 := by
  rw [bXor_contents, BitVec.xor_self]
  rfl

/-- Settles O33: the loop halves both operands at each step and adds entry `i` exactly where their parities
differ. -/
theorem canonicalXorIsNativeXor : Obligations.CanonicalXorIsNativeXor := by
  refine ⟨bXor_contents, fun l r i hi => ?_, bXor_self, (bXor_contents 12 10).trans (by decide)⟩
  have hloop := xorLoop_at l r hi
  exact ⟨hloop.left.trans (fdiv_two_pow l i).symm, hloop.right.trans (fdiv_two_pow r i).symm⟩

/-! ## The nine XOR instructions (R122 to R130) -/

theorem exec_bxor_native {s : State} (hs : s.pow2 = pow2Contents) (w : Width) (a b : Bus) :
    exec (instrOf .bxor w a b) s = .next (s.withResponse (.ok (nativeBus w (a ^^^ b)))) := by
  rw [exec_instrOf, hs, canonicalValue, bXor_contents, responseAt_eq_nativeBus fun n h32 hw => ?_]
  rw [BitVec.setWidth_xor, BitVec.setWidth_xor, setWidth_ofInt_tobit_operand h32 hw,
    setWidth_ofInt_tobit_operand h32 hw]

/-- Settles O39: each clause is the native XOR at one width. -/
theorem xorAtEveryWidth : Obligations.XorAtEveryWidth := by
  intro s a b hs
  have hbxor (w : Width) := exec_bxor_native hs w a b
  exact ⟨hbxor .i8, hbxor .u8, hbxor .i16, hbxor .u16, hbxor .i32, hbxor .u32, hbxor .i64, hbxor .u64,
    hbxor .c16⟩

end Sys2Proof.Machine
end

section
/-! NOT (43_not.md): the complement as -1 - v with the laws of R141, and the response of every width. NOT
reads no table entry, so the responses hold in every state. -/

namespace Sys2Proof.Machine

/-! ## The canonical operation (R141) -/

/-- MODM - v and -1 - v differ by a multiple of MOD, which normalisation does not see. -/
theorem bNot_eq_tobit (v : Int) : bNot v = tobit (-1 - v) := by
  have hmod : mod v Config.modulus = v % 4294967296 := mod_of_pos v (by decide)
  have hresidue : (4294967295 - v % 4294967296) % 4294967296 = (-1 - v) % 4294967296 := by omega
  rw [bNot, hmod, Config.modulusMinusOne, tobit_eq_ite, tobit_eq_ite, hresidue]

theorem bNot_canonical {v : Int} (hmin : -2147483648 ≤ v) (hmax : v ≤ 2147483647) : bNot v = -1 - v := by
  rw [bNot_eq_tobit, tobit_eq_self (by omega) (by omega)]

theorem bNot_bNot (v : Int) : bNot (bNot v) = tobit v := by
  rw [bNot_eq_toInt, bNot_eq_toInt, BitVec.ofInt_toInt, BitVec.not_not, tobit_eq_toInt]

/-- Settles O34: the pattern of `bNot v` is the complement of that of `v`, and its value -1 - v is canonical
where `v` is. -/
theorem canonicalNotIsTheComplement : Obligations.CanonicalNotIsTheComplement := by
  refine ⟨fun v hmin hmax => ?_, bNot_canonical (by decide) (by decide)⟩
  exact ⟨bNot_canonical hmin hmax, bNot_eq_toInt v, (bNot_bNot v).trans (tobit_eq_self hmin hmax),
    bOr_bNot v, bAnd_bNot v⟩

/-! ## The nine NOT instructions (R142 to R150) -/

theorem exec_bnot_native (s : State) (w : Width) (a b : Bus) :
    exec (instrOf .bnot w a b) s = .next (s.withResponse (.ok (nativeBus w (~~~a)))) := by
  rw [exec_instrOf, canonicalValue, bNot_eq_toInt, responseAt_eq_nativeBus fun n h32 hw => ?_]
  have hbus : n ≤ 64 := by omega
  rw [BitVec.setWidth_not h32, BitVec.setWidth_not hbus, setWidth_ofInt_tobit_operand h32 hw]

/-- Settles O40: each clause is the native complement at one width; B is absent from the instruction. -/
theorem notAtEveryWidth : Obligations.NotAtEveryWidth := by
  intro s a
  have hbnot (w : Width) := exec_bnot_native s w a 0
  exact ⟨hbnot .i8, hbnot .u8, hbnot .i16, hbnot .u16, hbnot .i32, hbnot .u32, hbnot .i64, hbnot .u64,
    hbnot .c16⟩

end Sys2Proof.Machine
end

section
/-! The amount of a shift instruction at a width (44_shift.md R164 to R167): an amount and the direction select a
direction and an index, or a fault; and the amount -2^31, the reduced amounts above 31 and the delegation of
negative amounts at each width. -/

namespace Sys2Proof

/-- At 32 bits or fewer every reduced amount indexes the table; only a 64-bit width can miss it (R167). -/
theorem Width.mod_bits_lt {w : Width} {m : Nat} (h : w.bits = 64 → m % 64 ≤ 31) : m % w.bits < 32 := by
  obtain hwide | hnarrow := w.bits_cases
  · rw [hwide]
    exact Nat.lt_succ_of_le (h hwide)
  · exact (Nat.mod_lt m w.bits_pos).trans_le hnarrow

end Sys2Proof

namespace Sys2Proof.Machine

/-! ## The two shifts as one instruction with a direction -/

/-- The operation of a direction (R164). -/
def ShiftKind.operation : ShiftKind → Operation
  | .shl => .bshl
  | .shr => .bshr

theorem exec_shift (k : ShiftKind) (w : Width) (a b : Bus) (s : State) :
    exec (instrOf k.operation w a b) s = dispatchShift k w a b s := by
  cases k with
  | shl => exact exec_bshl w a b s
  | shr => exact exec_bshr w a b s

section

variable {k : ShiftKind} {w : Width} {n : Int} (hmin : -2147483648 ≤ n) (hmax : n ≤ 2147483647) (a : Bus)
  (s : State)

include hmin hmax

theorem exec_shift_of_shamt_ok {k' : ShiftKind} {i : Fin 32} (h : shamt k w n = .ok (k', i)) :
    exec (instrOf k.operation w a (BitVec.ofInt 64 n)) s =
      .next (s.withResponse (responseAt w (.ok (shiftBy k' s.pow2 (tobit (operand w a)) i)))) := by
  simp only [exec_shift, dispatchShift_eq, shiftValue, shiftAmount_ofInt hmin hmax, h]

theorem exec_shift_of_shamt_error {e : Cause} (h : shamt k w n = .error e) :
    exec (instrOf k.operation w a (BitVec.ofInt 64 n)) s = .next (s.withResponse (.raised e)) := by
  simp only [exec_shift, dispatchShift_eq, shiftValue, shiftAmount_ofInt hmin hmax, h, responseAt]

end

/-! ## The reduction of a magnitude (R164, R166) -/

theorem toNat_mod_bits (w : Width) (m : Nat) : (mod (m : Int) (w.bits : Int)).toNat = m % w.bits := by
  rw [mod_of_pos _ (Int.natCast_pos.mpr w.bits_pos), ← Int.natCast_emod, Int.toNat_natCast]

theorem reduceAmount_of_lt {w : Width} {m : Nat} (k : ShiftKind) (n : Int) (h : m % w.bits < 32) :
    reduceAmount k w n (m : Int) = .ok (k, ⟨m % w.bits, h⟩) := by
  obtain ⟨-, hbig⟩ | ⟨i, hr, hi⟩ := reduceAmount_cases k w n m
  · rw [toNat_mod_bits] at hbig
    omega
  · rw [toNat_mod_bits] at hi
    rw [hr, show i = ⟨m % w.bits, h⟩ from Fin.ext hi]

theorem reduceAmount_of_le {w : Width} {m : Nat} (k : ShiftKind) (n : Int) (h : 32 ≤ m % w.bits) :
    reduceAmount k w n (m : Int) = .error (.shiftRange (.amount n)) := by
  obtain ⟨hr, -⟩ | ⟨i, -, hi⟩ := reduceAmount_cases k w n m
  · exact hr
  · rw [toNat_mod_bits] at hi
    omega

/-! ## The sign test (R160, R165) -/

theorem shamt_minAmount (k : ShiftKind) (w : Width) :
    shamt k w (-2147483648) = .error (.shiftRange (.amount (-2147483648))) := rfl

theorem shamt_of_neg {m : Nat} (k : ShiftKind) (w : Width) (hpos : 1 ≤ m) (hlt : m < 2147483648) :
    shamt k w (-(m : Int)) = reduceAmount k.flip w (-(m : Int)) (m : Int) := by
  obtain ⟨hmin, -⟩ | ⟨-, -, hs⟩ | ⟨hnonneg, -⟩ := shamt_cases k w (-(m : Int))
  · rw [Config.minAmount] at hmin
    omega
  · rw [hs, neg_neg]
  · omega

/-- Any other amount is reduced by its magnitude, in the one direction or the other. -/
theorem shamt_eq_reduceAmount (k : ShiftKind) (w : Width) {n : Int} (hmin : -2147483647 ≤ n) :
    ∃ k' : ShiftKind, shamt k w n = reduceAmount k' w n (n.natAbs : Int) := by
  obtain ⟨heq, -⟩ | ⟨hneg, -, hs⟩ | ⟨hnonneg, hs⟩ := shamt_cases k w n
  · rw [heq] at hmin
    exact absurd hmin (by decide)
  · exact ⟨k.flip, by rw [hs, Int.ofNat_natAbs_of_nonpos hneg.le]⟩
  · exact ⟨k, by rw [hs, Int.natAbs_of_nonneg hnonneg]⟩

/-! ## The amounts that raise SHIFT_RANGE (R165, R166) -/

theorem exec_shift_minAmount (k : ShiftKind) (w : Width) (a : Bus) (s : State) :
    exec (instrOf k.operation w a 0xFFFFFFFF80000000) s =
      .next (s.withResponse (.raised (.shiftRange (.amount (-2147483648))))) :=
  exec_shift_of_shamt_error (by decide) (by decide) a s (shamt_minAmount k w)

/-- Settles O47: the sign test comes before the reduction, so the width does not matter. -/
theorem minimumAmountRaisesEverywhere : Obligations.MinimumAmountRaisesEverywhere :=
  fun w a s => ⟨exec_shift_minAmount .shl w a s, exec_shift_minAmount .shr w a s⟩

theorem exec_shift_of_reduced_above {w : Width} {n : Int} (k : ShiftKind) (hmin : -2147483647 ≤ n)
    (hmax : n ≤ 2147483647) (hbig : 32 ≤ n.natAbs % w.bits) (a : Bus) (s : State) :
    exec (instrOf k.operation w a (BitVec.ofInt 64 n)) s =
      .next (s.withResponse (.raised (.shiftRange (.amount n)))) := by
  obtain ⟨k', hs⟩ := shamt_eq_reduceAmount k w hmin
  exact exec_shift_of_shamt_error (by omega) hmax a s (hs.trans (reduceAmount_of_le k' n hbig))

/-- Settles O48: the magnitude modulo 64 has no entry in the table. -/
theorem wideShiftsRefuseReducedAmountsAbove31 : Obligations.WideShiftsRefuseReducedAmountsAbove31 := by
  intro s a n hmin hmax hbig
  exact ⟨exec_shift_of_reduced_above (w := .i64) .shl hmin hmax hbig a s,
    exec_shift_of_reduced_above (w := .i64) .shr hmin hmax hbig a s,
    exec_shift_of_reduced_above (w := .u64) .shl hmin hmax hbig a s,
    exec_shift_of_reduced_above (w := .u64) .shr hmin hmax hbig a s⟩

/-! ## The amounts of a narrow width (R167) -/

theorem shamt_narrow {w : Width} {n : Int} (k : ShiftKind) (hw : w.bits ≤ 32) (hmin : -2147483647 ≤ n) :
    ∃ (k' : ShiftKind) (i : Fin 32), shamt k w n = .ok (k', i) ∧ i.val < w.bits := by
  have hlt : n.natAbs % w.bits < w.bits := Nat.mod_lt _ w.bits_pos
  obtain ⟨k', hs⟩ := shamt_eq_reduceAmount k w hmin
  exact ⟨k', _, hs.trans (reduceAmount_of_lt k' n (hlt.trans_le hw)), hlt⟩

theorem exec_shift_narrow {w : Width} {n : Int} (k : ShiftKind) (hw : w.bits ≤ 32) (hmin : -2147483647 ≤ n)
    (hmax : n ≤ 2147483647) (a : Bus) (s : State) :
    ∃ r : Bus, exec (instrOf k.operation w a (BitVec.ofInt 64 n)) s = .next (s.withResponse (.ok r)) := by
  obtain ⟨k', i, hs, -⟩ := shamt_narrow k hw hmin
  exact ⟨_, exec_shift_of_shamt_ok (by omega) hmax a s hs⟩

/-- Settles O49: the magnitude modulo N(W) is below N(W), hence below 32. -/
theorem narrowShiftsAcceptEveryAmount : Obligations.NarrowShiftsAcceptEveryAmount :=
  fun _ _ hw hmin hmax => ⟨fun k => shamt_narrow k hw hmin,
    fun s a => ⟨exec_shift_narrow .shl hw hmin hmax a s, exec_shift_narrow .shr hw hmin hmax a s⟩⟩

/-! ## Negative amounts (R160, R164) -/

theorem exec_shift_of_nonneg {w : Width} {n : Nat} (k : ShiftKind) (hn : n < 2147483648)
    (hfits : n % w.bits < 32) (a : Bus) (s : State) :
    exec (instrOf k.operation w a (BitVec.ofNat 64 n)) s =
      .next (s.withResponse (responseAt w (.ok
        (shiftBy k s.pow2 (tobit (operand w a)) ⟨n % w.bits, hfits⟩)))) := by
  rw [← BitVec.ofInt_natCast]
  exact exec_shift_of_shamt_ok (by omega) (by omega) a s (shamt_of_nonneg k hfits)

theorem exec_shift_of_neg {w : Width} {m : Nat} (k : ShiftKind) (hpos : 1 ≤ m) (hlt : m < 2147483648)
    (hfits : m % w.bits < 32) (a : Bus) (s : State) :
    exec (instrOf k.operation w a (BitVec.ofInt 64 (-(m : Int)))) s =
      exec (instrOf k.flip.operation w a (BitVec.ofNat 64 m)) s := by
  have hshamt := (shamt_of_neg k w hpos hlt).trans (reduceAmount_of_lt k.flip (-(m : Int)) hfits)
  rw [exec_shift_of_shamt_ok (by omega) (by omega) a s hshamt, exec_shift_of_nonneg k.flip hlt hfits]

/-- Settles O44: both sides reduce the same magnitude and shift in the same direction. -/
theorem negativeAmountIsTheOtherShift : Obligations.NegativeAmountIsTheOtherShift := by
  intro w s a m hpos hlt hwide
  have hfits := Width.mod_bits_lt hwide
  exact ⟨exec_shift_of_neg .shl hpos hlt hfits a s, exec_shift_of_neg .shr hpos hlt hfits a s⟩

end Sys2Proof.Machine
end

section
/-! The canonical shifts (44_shift.md R160 to R163): the right shift as the logical shift of the 32-bit pattern, the
laws of the amount, and the i32 instructions as the canonical shifts. -/

namespace Sys2Proof.Machine

/-! ## A shift by an index of the table (R162, R163) -/

theorem shrBy_contents (v : Int) (i : Fin 32) :
    shrBy pow2Contents v i = (BitVec.ofInt 32 v >>> i.val).toInt := by
  have hpattern : mod v Config.modulus = ((BitVec.ofInt 32 v).toNat : Int) := mod_eq_toNat_ofInt 32 v
  have hquotient : fdiv (mod v Config.modulus) (readPow2 pow2Contents i) =
      ((BitVec.ofInt 32 v >>> i.val).toNat : Int) := by
    rw [hpattern, readPow2_contents, fdiv_of_pos _ (by positivity), BitVec.toNat_ushiftRight,
      Nat.shiftRight_eq_div_pow, Int.natCast_ediv, Nat.cast_pow, Nat.cast_ofNat]
  rw [shrBy, hquotient, tobit_toNat]

/-- Settles O35: a shift by `i` multiplies or divides by entry `i`, which is 2^i. -/
theorem canonicalShiftsAreNativeShifts : Obligations.CanonicalShiftsAreNativeShifts :=
  ⟨fun v i => ⟨shlBy_contents v i, shrBy_contents v i⟩,
    congrArg Except.ok ((shlBy_contents 1 31).trans (by decide)),
    congrArg Except.ok ((shrBy_contents (-8) 1).trans (by decide))⟩

/-! ## The laws of the amount (R160) -/

theorem ShiftKind.flip_flip (k : ShiftKind) : k.flip.flip = k := by cases k <;> rfl

theorem shiftBy_zero (k : ShiftKind) (v : Int) : shiftBy k pow2Contents v 0 = tobit v := by
  cases k with
  | shl => exact (shlBy_contents v 0).trans (by rw [Fin.val_zero, BitVec.shiftLeft_zero, tobit_eq_toInt])
  | shr => exact (shrBy_contents v 0).trans (by rw [Fin.val_zero, BitVec.ushiftRight_zero, tobit_eq_toInt])

theorem canonicalShift_zero (k : ShiftKind) {v : Int} (hmin : -2147483648 ≤ v) (hmax : v ≤ 2147483647) :
    canonicalShift k pow2Contents v 0 = .ok v := by
  have hzero : canonicalShift k pow2Contents v 0 = .ok (shiftBy k pow2Contents v 0) := rfl
  rw [hzero, shiftBy_zero, tobit_eq_self hmin hmax]

theorem canonicalShift_minAmount (k : ShiftKind) (t : PowTable) (v : Int) :
    canonicalShift k t v (-2147483648) = .error (.shiftRange (.amount (-2147483648))) := rfl

theorem canonicalShift_of_nonneg (k : ShiftKind) (t : PowTable) (v : Int) {n : Int} (h : 0 ≤ n) :
    canonicalShift k t v n = .ok (shiftBy k t v (reduce32 n)) := by
  rw [canonicalShift, if_neg h.not_gt]

/-- A shift by a negative amount is the other one by its magnitude, whatever the table holds. -/
theorem canonicalShift_of_neg (k : ShiftKind) (t : PowTable) (v : Int) {n : Int} (hneg : n < 0)
    (hmin : n ≠ Config.minAmount) : canonicalShift k t v n = canonicalShift k.flip t v (-n) := by
  rw [canonicalShift_of_nonneg k.flip t v (Int.neg_nonneg_of_nonpos hneg.le), canonicalShift, if_pos hneg,
    if_neg hmin]

/-- For an amount above 0 it is the other side that delegates; at 0 both sides are the operand. -/
theorem canonicalShift_eq_flip_neg (k : ShiftKind) {v n : Int} (hmin : -2147483648 ≤ v)
    (hmax : v ≤ 2147483647) (hlo : -2147483647 ≤ n) (hhi : n ≤ 2147483647) :
    canonicalShift k pow2Contents v n = canonicalShift k.flip pow2Contents v (-n) := by
  obtain hneg | rfl | hpos := lt_trichotomy n 0
  · exact canonicalShift_of_neg k _ v hneg (by rw [Config.minAmount]; omega)
  · rw [neg_zero, canonicalShift_zero k hmin hmax, canonicalShift_zero k.flip hmin hmax]
  · have hmin' : -n ≠ Config.minAmount := by rw [Config.minAmount]; omega
    rw [canonicalShift_of_neg k.flip _ v (Int.neg_neg_of_pos hpos) hmin', ShiftKind.flip_flip, neg_neg]

theorem exists_canonicalShift_eq_ok (k : ShiftKind) (t : PowTable) (v : Int) {n : Int}
    (hmin : -2147483647 ≤ n) : ∃ r : Int, canonicalShift k t v n = .ok r := by
  obtain ⟨heq, -⟩ | ⟨-, -, hs⟩ | ⟨-, hs⟩ := canonicalShift_cases k t v n
  · rw [heq] at hmin
    exact absurd hmin (by decide)
  · exact ⟨_, hs⟩
  · exact ⟨_, hs⟩

/-- Settles O36: the sign test delegates once, and the amount 0 leaves a canonical operand alone. -/
theorem canonicalShiftDelegation : Obligations.CanonicalShiftDelegation := by
  intro x hmin hmax
  refine ⟨canonicalShift_zero .shl hmin hmax, canonicalShift_zero .shr hmin hmax, fun n hlo hhi => ?_,
    canonicalShift_minAmount .shl _ x, canonicalShift_minAmount .shr _ x⟩
  exact ⟨canonicalShift_eq_flip_neg .shl hmin hmax hlo hhi, canonicalShift_eq_flip_neg .shr hmin hmax hlo hhi,
    exists_canonicalShift_eq_ok .shl _ x hlo⟩

/-! ## The i32 instructions (R164) -/

/-- At i32 the reduction of the amount is that of the canonical shifts (R161). -/
theorem reduceAmount_i32 (k : ShiftKind) (n m : Int) : reduceAmount k .i32 n m = .ok (k, reduce32 m) := by
  obtain ⟨hmin, hmax⟩ := mod_range_of_pos m (d := 32) (by decide)
  have hbits : mod m (Width.i32.bits : Int) = mod m 32 := rfl
  obtain ⟨-, hbig⟩ | ⟨i, hr, hi⟩ := reduceAmount_cases k .i32 n m
  · omega
  · have hindex : i = reduce32 m := Fin.ext (by rw [hi, hbits, reduce32, Fin.val_ofNat]; omega)
    rw [hr, hindex]

theorem shiftValue_i32 (k : ShiftKind) (t : PowTable) (a : Bus) {n : Int} (hmin : -2147483648 ≤ n)
    (hmax : n ≤ 2147483647) :
    shiftValue k .i32 t a (BitVec.ofInt 64 n) = canonicalShift k t (a.setWidth 32).toInt n := by
  have hword : tobit (operand .i32 a) = (a.setWidth 32).toInt := tobit_operand (by decide) a
  obtain ⟨rfl, -⟩ | ⟨hneg, hne, hs⟩ | ⟨hnonneg, hs⟩ := shamt_cases k .i32 n
  · simp only [shiftValue, shiftAmount_ofInt hmin hmax, shamt_minAmount, canonicalShift_minAmount]
  · simp only [shiftValue, shiftAmount_ofInt hmin hmax, hs, reduceAmount_i32, hword,
      canonicalShift_of_neg k t _ hneg hne,
      canonicalShift_of_nonneg k.flip t _ (Int.neg_nonneg_of_nonpos hneg.le)]
  · simp only [shiftValue, shiftAmount_ofInt hmin hmax, hs, reduceAmount_i32, hword,
      canonicalShift_of_nonneg k t _ hnonneg]

/-- At i32 a canonical value is narrowed to itself. -/
theorem responseAt_i32 {v : Int} (hmin : -2147483648 ≤ v) (hmax : v ≤ 2147483647) :
    responseAt .i32 (.ok v) = .ok (BitVec.ofInt 64 v) := by
  rw [responseAt, trunc_i32, tobit_eq_self hmin hmax, busOf_eq_ofInt]

theorem exec_shift_i32 (k : ShiftKind) (s : State) (a : Bus) {n : Int} (hmin : -2147483648 ≤ n)
    (hmax : n ≤ 2147483647) :
    exec (instrOf k.operation .i32 a (BitVec.ofInt 64 n)) s =
      .next (s.withResponse (responseAt .i32 (canonicalShift k s.pow2 (a.setWidth 32).toInt n))) := by
  rw [exec_shift, dispatchShift_eq, shiftValue_i32 k s.pow2 a hmin hmax]

theorem exec_shift_i32_of_ok {k : ShiftKind} {s : State} {a : Bus} {n r : Int} (hmin : -2147483648 ≤ n)
    (hmax : n ≤ 2147483647) (h : canonicalShift k s.pow2 (a.setWidth 32).toInt n = .ok r) :
    exec (instrOf k.operation .i32 a (BitVec.ofInt 64 n)) s =
      .next (s.withResponse (.ok (BitVec.ofInt 64 r))) := by
  obtain ⟨hlo, hhi⟩ := canonicalShift_range h
  rw [exec_shift_i32 k s a hmin hmax, h, responseAt_i32 hlo hhi]

theorem exec_shift_i32_of_error {k : ShiftKind} {s : State} {a : Bus} {n : Int} {e : Cause}
    (hmin : -2147483648 ≤ n) (hmax : n ≤ 2147483647)
    (h : canonicalShift k s.pow2 (a.setWidth 32).toInt n = .error e) :
    exec (instrOf k.operation .i32 a (BitVec.ofInt 64 n)) s = .next (s.withResponse (.raised e)) := by
  rw [exec_shift_i32 k s a hmin hmax, h, responseAt]

/-- Settles O45: at i32 both reduce the amount modulo 32, and narrowing keeps the canonical result. -/
theorem i32ShiftsAreTheCanonicalShifts : Obligations.I32ShiftsAreTheCanonicalShifts := by
  intro s a n hmin hmax
  constructor
  · split
    next r h => exact exec_shift_i32_of_ok (k := .shl) hmin hmax h
    next e h => exact exec_shift_i32_of_error (k := .shl) hmin hmax h
  · split
    next r h => exact exec_shift_i32_of_ok (k := .shr) hmin hmax h
    next e h => exact exec_shift_i32_of_error (k := .shr) hmin hmax h

end Sys2Proof.Machine
end

section
/-! The shift instructions by an amount that is not negative (44_shift.md R168 to R187): the response of every
width. A left shift agrees with the native one on the low bits; a right shift brings bits down, so what the
canonical word holds above N(W) decides it. -/

namespace Sys2Proof.Machine

/-! ## The nine left shifts (R170 to R178) -/

theorem exec_bshl_native {s : State} (hs : s.pow2 = pow2Contents) {w : Width} {n : Nat} (hn : n < 2147483648)
    (hfits : n % w.bits < 32) (a : Bus) :
    exec (instrOf .bshl w a (BitVec.ofNat 64 n)) s =
      .next (s.withResponse (.ok (nativeBus w (a <<< (n % w.bits))))) := by
  refine (exec_shift_of_nonneg .shl hn hfits a s).trans ?_
  rw [hs, shiftBy, shlBy_contents, responseAt_eq_nativeBus fun m h32 hw => ?_]
  rw [BitVec.setWidth_shiftLeft_of_le h32, BitVec.setWidth_shiftLeft_of_le (hw.trans w.bits_le),
    setWidth_ofInt_tobit_operand h32 hw]

/-- At 64 bits the native left shift is taken of bits [31:0]. -/
theorem nativeBus_shiftLeft {w : Width} (hw : w.bits = 64) (a : Bus) (i : Nat) :
    nativeBus w (a <<< i) = (a.setWidth 32 <<< i).signExtend 64 := by
  rw [nativeBus, if_pos hw, BitVec.setWidth_shiftLeft_of_le (by decide)]

/-- Settles O42: each clause is the native left shift at one width. -/
theorem shiftLeftByNonNegativeAmount : Obligations.ShiftLeftByNonNegativeAmount := by
  intro s a n hs hn
  have hnarrow (w : Width) (hw : w.bits ≠ 64) :=
    exec_bshl_native hs hn (w.mod_bits_lt fun h => absurd h hw) a
  refine ⟨hnarrow .i8 (by decide), hnarrow .u8 (by decide), hnarrow .i16 (by decide), hnarrow .u16 (by decide),
    hnarrow .i32 (by decide), hnarrow .u32 (by decide), hnarrow .c16 (by decide), fun hfits => ?_⟩
  have hwide (w : Width) (hw : w.bits = 64) := exec_bshl_native hs hn (w.mod_bits_lt fun _ => hfits) a
  rw [← nativeBus_shiftLeft (w := .i64) rfl]
  exact ⟨hwide .i64 rfl, hwide .u64 rfl⟩

/-! ## The nine right shifts (R179 to R187) -/

theorem exec_bshr_canonical {s : State} (hs : s.pow2 = pow2Contents) {w : Width} {n : Nat} (hn : n < 2147483648)
    (hfits : n % w.bits < 32) (a : Bus) :
    exec (instrOf .bshr w a (BitVec.ofNat 64 n)) s =
      .next (s.withResponse (responseAt w
        (.ok (BitVec.ofInt 32 (operand w a) >>> (n % w.bits)).toInt))) := by
  refine (exec_shift_of_nonneg .shr hn hfits a s).trans ?_
  rw [hs, shiftBy, shrBy_contents, ofInt_tobit]

/-- The response to a canonical word at 32 bits or fewer is the extension of its low N(W) bits. -/
theorem responseAt_toInt_of_le {w : Width} (hw : w.bits ≤ 32) (p : BitVec 32) :
    responseAt w (.ok p.toInt) =
      .ok (if w.signed then (p.setWidth w.bits).signExtend 64 else (p.setWidth w.bits).setWidth 64) := by
  rw [responseAt_ok_eq_extension, ← setWidth_ofInt hw, BitVec.ofInt_toInt]

/-- Below a zero extension the logical right shift brings zeros into the low bits (R169 (a)). -/
theorem setWidth_setWidth_ushiftRight {m n : Nat} (h : m ≤ n) (x : BitVec m) (i : Nat) :
    (x.setWidth n >>> i).setWidth m = x >>> i := by
  rw [← BitVec.setWidth_ushiftRight h, BitVec.setWidth_setWidth_of_le _ h, BitVec.setWidth_eq]

/-- Below a sign extension it brings copies of the sign, as long as none of the zeros reaches the low bits
(R169 (b)). -/
theorem setWidth_signExtend_ushiftRight {m n i : Nat} (h : i + m ≤ n) (x : BitVec m) :
    (x.signExtend n >>> i).setWidth m = x.sshiftRight i := by
  ext j hj
  have hin : i + j < n := by omega
  rw [BitVec.getElem_setWidth, BitVec.getLsbD_ushiftRight, BitVec.getLsbD_signExtend,
    BitVec.getElem_sshiftRight]
  simp only [hin, decide_true, Bool.true_and]
  split
  · rfl
  · rfl

theorem exec_bshr_unsigned {s : State} (hs : s.pow2 = pow2Contents) {w : Width} (hsigned : w.signed = false)
    (hw : w.bits ≤ 32) {n : Nat} (hn : n < 2147483648) (a : Bus) :
    exec (instrOf .bshr w a (BitVec.ofNat 64 n)) s =
      .next (s.withResponse (.ok ((a.setWidth w.bits >>> (n % w.bits)).setWidth 64))) := by
  have hlt : n % w.bits < w.bits := Nat.mod_lt n w.bits_pos
  have hword : BitVec.ofInt 32 (operand w a) = (a.setWidth w.bits).setWidth 32 := by
    rw [operand_eq_ite, hsigned, if_neg Bool.false_ne_true, BitVec.ofInt_natCast, BitVec.ofNat_toNat]
  rw [exec_bshr_canonical hs hn (hlt.trans_le hw), responseAt_toInt_of_le hw, hsigned,
    if_neg Bool.false_ne_true, hword, setWidth_setWidth_ushiftRight hw]

theorem exec_bshr_signed {s : State} (hs : s.pow2 = pow2Contents) {w : Width} (hsigned : w.signed = true)
    (hw : w.bits ≤ 16) {n : Nat} (hn : n < 2147483648) (a : Bus) :
    exec (instrOf .bshr w a (BitVec.ofNat 64 n)) s =
      .next (s.withResponse (.ok (((a.setWidth w.bits).sshiftRight (n % w.bits)).signExtend 64))) := by
  have hlt : n % w.bits < w.bits := Nat.mod_lt n w.bits_pos
  have hword : BitVec.ofInt 32 (operand w a) = (a.setWidth w.bits).signExtend 32 := by
    rw [operand_eq_ite, if_pos hsigned, BitVec.signExtend]
  rw [exec_bshr_canonical hs hn (by omega), responseAt_toInt_of_le (by omega), if_pos hsigned, hword,
    setWidth_signExtend_ushiftRight (by omega)]

/-- At i32, i64 and u64 it is the logical shift of bits [31:0], read as signed (R169 (c) and (d)). -/
theorem exec_bshr_lowWord {s : State} (hs : s.pow2 = pow2Contents) {w : Width} (hw : w = .i32 ∨ w.bits = 64)
    {n : Nat} (hn : n < 2147483648) (hfits : n % w.bits < 32) (a : Bus) :
    exec (instrOf .bshr w a (BitVec.ofNat 64 n)) s =
      .next (s.withResponse (.ok ((a.setWidth 32 >>> (n % w.bits)).signExtend 64))) := by
  rw [exec_bshr_canonical hs hn hfits]
  obtain rfl | hwide := hw
  · rw [ofInt_operand (by decide), responseAt_i32 (BitVec.le_toInt _) (Int.le_sub_one_of_lt BitVec.toInt_lt),
      BitVec.signExtend]
  · rw [ofInt_operand (hwide ▸ by decide), responseAt_toInt hwide]

/-- Settles O43, by the classes of R169: zero-extended, sign-extended and whole canonical words. -/
theorem shiftRightByNonNegativeAmount : Obligations.ShiftRightByNonNegativeAmount := by
  intro s a n hs hn
  have hunsigned (w : Width) (h : w.signed = false) (hw : w.bits ≤ 32) := exec_bshr_unsigned hs h hw hn a
  have hsigned (w : Width) (h : w.signed = true) (hw : w.bits ≤ 16) := exec_bshr_signed hs h hw hn a
  refine ⟨hsigned .i8 rfl (by decide), hunsigned .u8 rfl (by decide), hsigned .i16 rfl (by decide),
    hunsigned .u16 rfl (by decide), exec_bshr_lowWord hs (.inl rfl) hn (Nat.mod_lt n (by decide)) a,
    hunsigned .u32 rfl (by decide), hunsigned .c16 rfl (by decide), fun hfits => ?_⟩
  have hlt : n % 64 < 32 := Nat.lt_succ_of_le hfits
  exact ⟨exec_bshr_lowWord (w := .i64) hs (.inr rfl) hn hlt a,
    exec_bshr_lowWord (w := .u64) hs (.inr rfl) hn hlt a⟩

end Sys2Proof.Machine
end

section
/-! Raising a fault (60_exceptions.md R201): the response alone changes, and its fields as a requester reads
them. -/

namespace Sys2Proof.Machine

theorem raise_eq (e : Cause) (s : State) : raise e s = .next (s.withResponse (.raised e)) := rfl

theorem readStatus_withResponse (s : State) (p : Response) :
    (s.withResponse p).readStatus = .ok p.status := rfl

theorem readResult_raised (s : State) (e : Cause) :
    (s.withResponse (.raised e)).readResult = .error .noResult := rfl

/-- Settles O16: both causes are raised alike, and differ in the code of their STATUS. -/
theorem faultResponseCarriesNoResult : Obligations.FaultResponseCarriesNoResult := by
  refine fun s => ⟨fun c => ?_, fun x => ?_⟩
  · exact ⟨_, raise_eq (.illegalCmd c) s, rfl, readStatus_withResponse s _, readResult_raised s _⟩
  · exact ⟨_, raise_eq (.shiftRange x) s, rfl, readStatus_withResponse s _, readResult_raised s _⟩

end Sys2Proof.Machine
end

section
/-! Well-formed operands (60_exceptions.md R200, R204): the checks of a shift argument as propositions on its
pattern, and which instructions have operands that are not well formed. -/

namespace Sys2Proof

theorem Width.bits_eq_sixtyFour_iff (w : Width) : w.bits = 64 ↔ w = .i64 ∨ w = .u64 := by
  cases w <;> decide

theorem Bus.shiftWellFormed_eq_true_iff (w : Width) (b : Bus) :
    Bus.shiftWellFormed w b = true ↔
      (b.setWidth 32).signExtend 64 = b ∧ b.toInt ≠ -2147483648 ∧
        (w.bits = 64 → b.toInt.natAbs % 64 ≤ 31) := by
  rw [Bus.shiftWellFormed, Bus.isExtension, Bus.notMinimum, Bus.magnitudeFits, Bool.and_eq_true,
    Bool.and_eq_true, decide_eq_true_iff, decide_eq_true_iff, decide_eq_true_iff]

/-- A shift argument that is not well formed is one of the three cases of R204. -/
theorem Bus.shiftWellFormed_eq_false_iff (w : Width) (b : Bus) :
    Bus.shiftWellFormed w b = false ↔
      (b.setWidth 32).signExtend 64 ≠ b ∨ b.toInt = -2147483648 ∨
        (w.bits = 64 ∧ 32 ≤ b.toInt.natAbs % 64) := by
  have hbig : ¬b.toInt.natAbs % 64 ≤ 31 ↔ 32 ≤ b.toInt.natAbs % 64 := Nat.not_le
  rw [← Bool.not_eq_true, Bus.shiftWellFormed_eq_true_iff, not_and_or, not_and_or, ne_eq, not_not,
    Classical.not_imp, hbig]

end Sys2Proof

namespace Sys2Proof.Machine

theorem wellFormed_shift (k : ShiftKind) (w : Width) (a b : Bus) :
    (instrOf k.operation w a b).wellFormed = Bus.shiftWellFormed w b := by
  cases k <;> cases w <;> rfl

theorem wellFormed_of_not_shift {op : Operation} (h : ¬(op = .bshl ∨ op = .bshr)) (w : Width) (a b : Bus) :
    (instrOf op w a b).wellFormed = true := by
  cases op with
  | band => cases w <;> rfl
  | bor => cases w <;> rfl
  | bxor => cases w <;> rfl
  | bnot => cases w <;> rfl
  | bshl => exact absurd (.inl rfl) h
  | bshr => exact absurd (.inr rfl) h

theorem isShift_iff_exists_kind (op : Operation) :
    (op = .bshl ∨ op = .bshr) ↔ ∃ k : ShiftKind, op = k.operation := by
  constructor
  · rintro (rfl | rfl)
    · exact ⟨.shl, rfl⟩
    · exact ⟨.shr, rfl⟩
  · rintro ⟨k, rfl⟩
    cases k with
    | shl => exact .inl rfl
    | shr => exact .inr rfl

/-- Only a shift can have operands that are not well formed, and B alone decides (R205). -/
theorem wellFormed_eq_false_iff (op : Operation) (w : Width) (a b : Bus) :
    (instrOf op w a b).wellFormed = false ↔
      (op = .bshl ∨ op = .bshr) ∧ Bus.shiftWellFormed w b = false := by
  by_cases h : op = .bshl ∨ op = .bshr
  · obtain ⟨k, rfl⟩ := (isShift_iff_exists_kind op).mp h
    rw [wellFormed_shift, and_iff_right h]
  · simp only [wellFormed_of_not_shift h, h, Bool.true_eq_false, false_and]

end Sys2Proof.Machine
end

section
/-! What every instruction answers (60_exceptions.md R200, R204): a result where its operands are well formed,
and otherwise a SHIFT_RANGE fault with the info of the first case of R204 that holds (R206). -/

namespace Sys2Proof.Machine

/-! ## The amount of a shift argument -/

theorem toInt_range_of_extension {b : Bus} (h : (b.setWidth 32).signExtend 64 = b) :
    -2147483648 ≤ b.toInt ∧ b.toInt ≤ 2147483647 := by
  have hlow : b.toInt = (b.setWidth 32).toInt := by
    rw [← BitVec.toInt_signExtend_of_le (show 32 ≤ 64 by decide), h]
  rw [hlow]
  exact ⟨BitVec.le_toInt _, Int.le_sub_one_of_lt BitVec.toInt_lt⟩

theorem shiftAmount_of_not_extension {b : Bus} (h : (b.setWidth 32).signExtend 64 ≠ b) :
    shiftAmount b = .error (.shiftRange (.bus b)) := by
  obtain ⟨herror, -⟩ | ⟨-, hext⟩ := shiftAmount_cases b
  · exact herror
  · rw [sext_slice_low] at hext
    exact absurd ((eq_mod_iff_signExtend_eq b).mp hext) h

/-- The cases (b) and (c) of R204. -/
theorem shamt_of_unusable {w : Width} {n : Int} (k : ShiftKind) (hmin : -2147483648 ≤ n)
    (h : n = -2147483648 ∨ (w.bits = 64 ∧ 32 ≤ n.natAbs % 64)) :
    shamt k w n = .error (.shiftRange (.amount n)) := by
  obtain rfl | ⟨hwide, hbig⟩ := h
  · exact shamt_minAmount k w
  · obtain ⟨k', hs⟩ := shamt_eq_reduceAmount k w (n := n) (by omega)
    exact hs.trans (reduceAmount_of_le k' n (hwide ▸ hbig))

theorem shamt_of_usable {w : Width} {n : Int} (k : ShiftKind) (hmin : -2147483647 ≤ n)
    (h : w.bits = 64 → n.natAbs % 64 ≤ 31) :
    ∃ (k' : ShiftKind) (i : Fin 32), shamt k w n = .ok (k', i) := by
  obtain ⟨k', hs⟩ := shamt_eq_reduceAmount k w hmin
  exact ⟨k', _, hs.trans (reduceAmount_of_lt k' n (Width.mod_bits_lt h))⟩

/-! ## A shift by any B -/

/-- Case (a) of R204: the info is the bus. -/
theorem exec_shift_of_not_extension {b : Bus} (h : (b.setWidth 32).signExtend 64 ≠ b) (k : ShiftKind)
    (w : Width) (a : Bus) (s : State) :
    exec (instrOf k.operation w a b) s = .next (s.withResponse (.raised (.shiftRange (.bus b)))) := by
  simp only [exec_shift, dispatchShift_eq, shiftValue, shiftAmount_of_not_extension h, responseAt]

/-- Cases (b) and (c) of R204: the info is the amount. -/
theorem exec_shift_of_unusable {w : Width} {b : Bus} (hext : (b.setWidth 32).signExtend 64 = b)
    (h : b.toInt = -2147483648 ∨ (w.bits = 64 ∧ 32 ≤ b.toInt.natAbs % 64)) (k : ShiftKind) (a : Bus)
    (s : State) :
    exec (instrOf k.operation w a b) s =
      .next (s.withResponse (.raised (.shiftRange (.amount b.toInt)))) := by
  obtain ⟨hmin, hmax⟩ := toInt_range_of_extension hext
  have hexec := exec_shift_of_shamt_error hmin hmax a s (shamt_of_unusable k hmin h)
  rwa [BitVec.ofInt_toInt] at hexec

theorem exec_shift_of_wellFormed {w : Width} {b : Bus} (h : Bus.shiftWellFormed w b = true) (k : ShiftKind)
    (a : Bus) (s : State) :
    ∃ r : Bus, exec (instrOf k.operation w a b) s = .next (s.withResponse (.ok r)) := by
  obtain ⟨hext, hne, hfits⟩ := (Bus.shiftWellFormed_eq_true_iff w b).mp h
  obtain ⟨hmin, hmax⟩ := toInt_range_of_extension hext
  obtain ⟨k', i, hs⟩ := shamt_of_usable k (by omega) hfits
  have hexec := exec_shift_of_shamt_ok hmin hmax a s hs
  rw [BitVec.ofInt_toInt] at hexec
  exact ⟨_, hexec⟩

theorem exec_shift_of_not_wellFormed {w : Width} {b : Bus} (h : Bus.shiftWellFormed w b = false)
    (k : ShiftKind) (a : Bus) (s : State) :
    ∃ x : ShiftInfo,
      exec (instrOf k.operation w a b) s = .next (s.withResponse (.raised (.shiftRange x))) := by
  by_cases hext : (b.setWidth 32).signExtend 64 = b
  · have hunusable := ((Bus.shiftWellFormed_eq_false_iff w b).mp h).resolve_left (not_not.mpr hext)
    exact ⟨_, exec_shift_of_unusable hext hunusable k a s⟩
  · exact ⟨_, exec_shift_of_not_extension hext k w a s⟩

/-! ## Every instruction -/

theorem exec_of_not_shift {op : Operation} (h : ¬(op = .bshl ∨ op = .bshr)) (w : Width) (a b : Bus)
    (s : State) : ∃ r : Bus, exec (instrOf op w a b) s = .next (s.withResponse (.ok r)) := by
  cases op with
  | band => exact ⟨_, exec_band w a b s⟩
  | bor => exact ⟨_, exec_bor w a b s⟩
  | bxor => exact ⟨_, exec_bxor w a b s⟩
  | bnot => exact ⟨_, exec_bnot w a b s⟩
  | bshl => exact absurd (.inl rfl) h
  | bshr => exact absurd (.inr rfl) h

/-- Every instruction ends in one of two responses, and its well-formedness says in which. -/
theorem exec_cases (i : Instr) (s : State) :
    (i.wellFormed = true ∧ ∃ r : Bus, exec i s = .next (s.withResponse (.ok r))) ∨
    (i.wellFormed = false ∧ ∃ x : ShiftInfo, exec i s = .next (s.withResponse (.raised (.shiftRange x)))) := by
  rw [← instrOf_operation_width i]
  by_cases hop : i.operation = .bshl ∨ i.operation = .bshr
  · obtain ⟨k, hk⟩ := (isShift_iff_exists_kind _).mp hop
    rw [hk, wellFormed_shift]
    cases hb : Bus.shiftWellFormed i.width i.busB with
    | true => exact .inl ⟨rfl, exec_shift_of_wellFormed hb k _ s⟩
    | false => exact .inr ⟨rfl, exec_shift_of_not_wellFormed hb k _ s⟩
  · exact .inl ⟨wellFormed_of_not_shift hop _ _ _, exec_of_not_shift hop _ _ _ s⟩

/-- Settles O19: well-formedness selects the response. -/
theorem everyInstructionEndsInOneResponse : Obligations.EveryInstructionEndsInOneResponse := by
  intro i s
  obtain ⟨hi, hexec⟩ | ⟨hi, hexec⟩ := exec_cases i s
  · exact ⟨fun _ => hexec, fun h => absurd (h.symm.trans hi) Bool.false_ne_true⟩
  · exact ⟨fun h => absurd (hi.symm.trans h) Bool.false_ne_true, fun _ => hexec⟩

theorem exec_raises_iff (i : Instr) (s : State) :
    (∃ x : ShiftInfo, exec i s = .next (s.withResponse (.raised (.shiftRange x)))) ↔
      i.wellFormed = false := by
  obtain ⟨hi, r, hexec⟩ | ⟨hi, hexec⟩ := exec_cases i s
  · refine ⟨fun ⟨x, hraised⟩ => ?_, fun h => absurd (h.symm.trans hi) Bool.false_ne_true⟩
    have hresponse := Option.some.inj (congrArg responseOf (hexec.symm.trans hraised))
    exact Response.noConfusion hresponse
  · exact ⟨fun _ => hi, fun _ => hexec⟩

/-- Settles O46: exactly the operands that are not well formed raise, and for a shift those are R204's. -/
theorem shiftRangeExactlyInThreeCases : Obligations.ShiftRangeExactlyInThreeCases := by
  intro op w a b s
  refine (exec_raises_iff _ s).trans ?_
  rw [wellFormed_eq_false_iff, Bus.shiftWellFormed_eq_false_iff, Width.bits_eq_sixtyFour_iff]

end Sys2Proof.Machine
end

section
/-! The response of a served request (60_exceptions.md R202, R203, R206): an illegal command byte is answered
before any operand is read, and every other byte runs the instruction it selects. -/

namespace Sys2Proof

/-! ## Command bytes that select an instruction (R203) -/

theorem CmdByte.wellFormed_eq_false_iff (c : CmdByte) :
    CmdByte.wellFormed c = false ↔
      c.getLsbD 7 = true ∨ 6 ≤ c.toNat % 8 ∨ 9 ≤ c.toNat / 8 % 16 := by
  simp only [CmdByte.wellFormed, CmdByte.reservedClear, CmdByte.operationDefined, CmdByte.widthDefined,
    Bool.and_eq_false_iff, Bool.not_eq_false', decide_eq_false_iff_not, not_lt]

theorem getLsbD_seven_iff (c : CmdByte) : c.getLsbD 7 = true ↔ 128 ≤ c.toNat := by
  have hlt := c.isLt
  rw [← BitVec.testBit_toNat, Nat.testBit_eq_decide_div_mod_eq, decide_eq_true_iff]
  omega

/-- The check on the bits of the byte agrees with the decoder. -/
theorem decode_legality_cases (q : Request) :
    (CmdByte.wellFormed q.cmd = false ∧ ∃ e, decode q = .error e) ∨
    (CmdByte.wellFormed q.cmd = true ∧ ∃ (op : Operation) (w : Width),
      q.cmd.toNat = w.code * 8 + op.code ∧ decode q = .ok (instrOf op w q.a q.b)) := by
  have hlegal := CmdByte.wellFormed_eq_false_iff q.cmd
  rw [getLsbD_seven_iff] at hlegal
  obtain ⟨hbit, hd⟩ | ⟨-, hop, hd⟩ | ⟨-, -, hwid, hd⟩ | ⟨op, w, hc, hd⟩ := decode_cases q.cmd
  · exact .inl ⟨hlegal.mpr (.inl hbit), _, hd q.a q.b⟩
  · exact .inl ⟨hlegal.mpr (.inr (.inl hop)), _, hd q.a q.b⟩
  · exact .inl ⟨hlegal.mpr (.inr (.inr hwid)), _, hd q.a q.b⟩
  · have hopLt := op.code_lt
    have hwLt := w.code_lt
    have hcmd : CmdByte.wellFormed q.cmd = true :=
      Bool.of_not_eq_false (mt hlegal.mp (by omega))
    exact .inr ⟨hcmd, op, w, hc, hd q.a q.b⟩

theorem Operation.code_eq_shift_iff (op : Operation) :
    (op.code = 4 ∨ op.code = 5) ↔ (op = .bshl ∨ op = .bshr) := by
  cases op <;> decide

theorem Width.bits_eq_sixtyFour_iff_code (w : Width) : w.bits = 64 ↔ w.code = 6 ∨ w.code = 7 := by
  cases w <;> decide

end Sys2Proof

namespace Sys2Proof.Machine

section

variable {s : State} {q : Request} {qs : List Request} (hc : s.constructed = true)
  (hq : s.pending = q :: qs)

include hc hq

/-- A step that serves a request: ILLEGAL_CMD, or the instruction the byte selects. -/
theorem step_legality_cases :
    (CmdByte.wellFormed q.cmd = false ∧
      step s = .next ((s.accept qs).withResponse (.raised (.illegalCmd q.cmd)))) ∨
    (CmdByte.wellFormed q.cmd = true ∧ ∃ (op : Operation) (w : Width),
      q.cmd.toNat = w.code * 8 + op.code ∧ step s = exec (instrOf op w q.a q.b) (s.accept qs)) := by
  rw [step_of_pending hc hq]
  obtain ⟨hcmd, e, hd⟩ | ⟨hcmd, op, w, hbyte, hd⟩ := decode_legality_cases q
  · exact .inl ⟨hcmd, serveRequest_of_rejected hd _⟩
  · exact .inr ⟨hcmd, op, w, hbyte, by rw [serveRequest, hd]⟩

theorem step_of_illegal (hcmd : CmdByte.wellFormed q.cmd = false) :
    step s = .next ((s.accept qs).withResponse (.raised (.illegalCmd q.cmd))) := by
  obtain ⟨-, hstep⟩ | ⟨hlegal, -⟩ := step_legality_cases hc hq
  · exact hstep
  · exact absurd (hcmd.symm.trans hlegal) Bool.false_ne_true

theorem step_of_legal (hcmd : CmdByte.wellFormed q.cmd = true) :
    ∃ (op : Operation) (w : Width), q.cmd.toNat = w.code * 8 + op.code ∧
      step s = exec (instrOf op w q.a q.b) (s.accept qs) := by
  obtain ⟨hillegal, -⟩ | ⟨-, hstep⟩ := step_legality_cases hc hq
  · exact absurd (hillegal.symm.trans hcmd) Bool.false_ne_true
  · exact hstep

end

theorem exec_not_illegalCmd (i : Instr) (s : State) (c : CmdByte) :
    responseOf (exec i s) ≠ some (.raised (.illegalCmd c)) := by
  obtain ⟨-, r, hexec⟩ | ⟨-, x, hexec⟩ := exec_cases i s
  · rw [hexec]
    exact fun h => Response.noConfusion (Option.some.inj h)
  · rw [hexec]
    exact fun h => Cause.noConfusion (Response.raised.inj (Option.some.inj h))

/-- Settles O8: the decoder rejects exactly these bytes, and no instruction raises ILLEGAL_CMD. -/
theorem illegalCommandIsRaised : Obligations.IllegalCommandIsRaised := by
  intro s q qs hc hq
  rw [← CmdByte.wellFormed_eq_false_iff, Bool.not_eq_false]
  refine ⟨step_of_illegal hc hq, fun hcmd c => ?_⟩
  obtain ⟨op, w, -, hstep⟩ := step_of_legal hc hq hcmd
  rw [hstep]
  exact exec_not_illegalCmd _ _ c

/-- The condition of STATUS = 2, read off the command byte, is that the operands of the instruction it
selects are not well formed. -/
theorem shift_not_wellFormed_iff {c : CmdByte} {op : Operation} {w : Width}
    (hbyte : c.toNat = w.code * 8 + op.code) (a b : Bus) :
    ((c.toNat % 8 = 4 ∨ c.toNat % 8 = 5) ∧
        ∀ v : Width, widthOfCode (widField c) = some v → Bus.shiftWellFormed v b = false) ↔
      (instrOf op w a b).wellFormed = false := by
  have hop := op.code_lt
  have hw := w.code_lt
  have hopField : c.toNat % 8 = op.code := by omega
  have hwidField : widthOfCode (widField c) = some w :=
    widthOfCode_of_toNat (by rw [toNat_widField]; omega)
  simp only [wellFormed_eq_false_iff, hopField, op.code_eq_shift_iff, hwidField, Option.some.injEq,
    forall_eq']

/-- Settles O9: each of the three outcomes of a step has its own STATUS. -/
theorem statusCodesOfServedRequests : Obligations.StatusCodesOfServedRequests := by
  intro s q qs hc hq
  obtain ⟨hcmd, hstep⟩ | ⟨hcmd, op, w, hbyte, hstep⟩ := step_legality_cases hc hq
  · exact ⟨.raised (.illegalCmd q.cmd), hstep, by simp [hcmd]⟩
  · simp only [hcmd, true_and, shift_not_wellFormed_iff hbyte q.a q.b]
    obtain ⟨hi, r, hexec⟩ | ⟨hi, x, hexec⟩ := exec_cases (instrOf op w q.a q.b) (s.accept qs)
    · exact ⟨.ok r, hstep.trans hexec, by simp [hi]⟩
    · exact ⟨.raised (.shiftRange x), hstep.trans hexec, by simp [hi]⟩

/-- Settles O10: the decoder comes first, then the form of B, then the amount. -/
theorem faultPriority : Obligations.FaultPriority := by
  intro s q qs hc hq
  refine ⟨step_of_illegal hc hq, fun hcmd hshift => ?_⟩
  obtain ⟨op, w, hbyte, hstep⟩ := step_of_legal hc hq hcmd
  have hopLt := op.code_lt
  have hopField : q.cmd.toNat % 8 = op.code := by omega
  have hwidField : q.cmd.toNat / 8 = w.code := by omega
  rw [hopField, op.code_eq_shift_iff, isShift_iff_exists_kind] at hshift
  obtain ⟨k, rfl⟩ := hshift
  rw [hstep, hwidField, ← w.bits_eq_sixtyFour_iff_code]
  exact ⟨fun hext => exec_shift_of_not_extension hext k w q.a _,
    fun hext hunusable => exec_shift_of_unusable hext hunusable k q.a _⟩

end Sys2Proof.Machine
end

section
/-! A run that is final at its first fault response (60_exceptions.md R208): it passes the well-formed requests
and ends at the first that is not, with the fault a fresh engine answers it with. -/

namespace Sys2Proof.Machine

/-! ## The answer to a request, by its well-formedness -/

theorem Request.wellFormed_of_rejected {q : Request} {e : DecodeReject} (h : decode q = .error e) :
    Request.WellFormed q = false := by
  rw [Request.WellFormed, h]

theorem Request.wellFormed_of_decode {q : Request} {i : Instr} (h : decode q = .ok i) :
    Request.WellFormed q = i.wellFormed := by
  rw [Request.WellFormed, h]

/-- Every request is answered with a result or with a fault, and its well-formedness says with which. -/
theorem answer_cases (q : Request) :
    (Request.WellFormed q = true ∧ ∃ r : Bus, answer q = some (.ok r)) ∨
    (Request.WellFormed q = false ∧ ∃ e : Cause, answer q = some (.raised e)) := by
  obtain ⟨e, hd, hserve⟩ | ⟨i, hd, hserve⟩ := serveRequest_cases q State.reset
  · exact .inr ⟨Request.wellFormed_of_rejected hd, _, congrArg responseOf hserve⟩
  · rw [Request.wellFormed_of_decode hd, answer, hserve]
    obtain ⟨hi, r, hexec⟩ | ⟨hi, x, hexec⟩ := exec_cases i State.reset
    · exact .inl ⟨hi, r, congrArg responseOf hexec⟩
    · exact .inr ⟨hi, _, congrArg responseOf hexec⟩

theorem answer_of_wellFormed {q : Request} (h : Request.WellFormed q = true) :
    ∃ r : Bus, answer q = some (.ok r) := by
  obtain ⟨-, hanswer⟩ | ⟨hill, -⟩ := answer_cases q
  · exact hanswer
  · exact absurd (hill.symm.trans h) Bool.false_ne_true

theorem answer_of_not_wellFormed {q : Request} (h : Request.WellFormed q = false) :
    ∃ e : Cause, answer q = some (.raised e) := by
  obtain ⟨hwell, -⟩ | ⟨-, hanswer⟩ := answer_cases q
  · exact absurd (h.symm.trans hwell) Bool.false_ne_true
  · exact hanswer

/-! ## The run -/

theorem runToFault_succ_of_ok {s t : State} {r : Bus} (n : Nat) (hstep : step s = .next t)
    (hresponse : t.response = some (.ok r)) : runToFault (n + 1) s = runToFault n t := by
  simp only [runToFault, hstep, hresponse]

theorem runToFault_succ_of_raised {s t : State} {e : Cause} (n : Nat) (hstep : step s = .next t)
    (hresponse : t.response = some (.raised e)) : runToFault (n + 1) s = .raised e := by
  simp only [runToFault, hstep, hresponse]

/-- The well-formed requests at the front are served without a fault, and a ready engine with the rest goes
on. -/
theorem runToFault_of_wellFormed_front {good rest : List Request} {s : State} (n : Nat) (hs : s.Ready)
    (hpending : s.pending = good ++ rest) (hgood : ∀ g ∈ good, Request.WellFormed g = true) :
    ∃ t : State, runToFault (good.length + n) s = runToFault n t ∧ t.pending = rest ∧ t.Ready := by
  induction good generalizing s with
  | nil => exact ⟨s, by rw [List.length_nil, Nat.zero_add], hpending, hs⟩
  | cons g good ih =>
    obtain ⟨hg, hgood⟩ := List.forall_mem_cons.mp hgood
    obtain ⟨r, hanswer⟩ := answer_of_wellFormed hg
    obtain ⟨t, hstep, hresponse, htail, ht⟩ := step_answers hs hpending
    obtain ⟨u, hrun, hu⟩ := ih ht htail hgood
    refine ⟨u, ?_, hu⟩
    rw [List.length_cons, Nat.succ_add, runToFault_succ_of_ok _ hstep (hresponse.trans hanswer), hrun]

/-- Settles O22: the run passes the well-formed requests, and what comes after it decides the end. -/
theorem runIsCleanUntilTheFirstIllFormedRequest :
    Obligations.RunIsCleanUntilTheFirstIllFormedRequest := by
  constructor
  · intro s hs hgood
    exact runToFault_of_wellFormed_front 0 hs (List.append_nil _).symm hgood
  · intro s good q rest hs hpending hgood hq
    obtain ⟨e, hanswer⟩ := answer_of_not_wellFormed hq
    obtain ⟨t, hrun, htail, ht⟩ := runToFault_of_wellFormed_front (rest.length + 1) hs hpending hgood
    obtain ⟨u, hstep, hresponse, -⟩ := step_answers ht htail
    refine ⟨e, ?_, hanswer⟩
    rw [hpending, List.length_append, List.length_cons, hrun,
      runToFault_succ_of_raised _ hstep (hresponse.trans hanswer)]

end Sys2Proof.Machine
end

section
/-! Reset (70_reset_and_hazards.md R220 to R226): the step that ends it writes the table, a request presented
meanwhile waits for it, and a machine after reset stays as it is until a request arrives. -/

namespace Sys2Proof.Machine

/-! ## The step by what stands in the state -/

theorem step_of_not_constructed {s : State} (hc : s.constructed = false) : step s = .next s.build := by
  simp only [step, engineStep, hc, Bool.false_eq_true, if_false]

theorem step_of_no_request {s : State} (hc : s.constructed = true) (hq : s.pending = []) :
    step s = .next s.idle := by
  simp only [step, engineStep, serveNext, hc, hq, if_true]

/-- Settles O11: idling ends the response of the step before and touches nothing else. -/
theorem stepWithNothingPendingIsIdle : Obligations.StepWithNothingPendingIsIdle :=
  fun _ hc hq => step_of_no_request hc hq

/-! ## The table and the machine after reset -/

theorem toNat_get_pow2Contents (i : Fin 32) : (pow2Contents.get i).toNat = 2 ^ i.val := by
  have h := readPow2_contents i
  rw [readPow2] at h
  exact_mod_cast h

theorem step_reset : step State.reset = .next State.reset :=
  step_of_no_request State.reset_constructed State.reset_pending

/-- Of the state before reset only the table survives its assertion, and the end of reset writes that. -/
theorem build_assertReset (s : State) : s.assertReset.build = State.reset := rfl

/-- Settles O12: the end of reset leaves nothing of the state in which it was asserted. -/
theorem resetState : Obligations.ResetState := by
  refine ⟨toNat_get_pow2Contents, State.reset_constructed, State.reset_pending, State.reset_response,
    step_reset, fun s => ?_⟩
  rw [step_of_not_constructed s.assertReset_constructed, build_assertReset]

/-- Settles O13: the step of a table that is not constructed is the end of reset. -/
theorem endOfResetBuildsTheTable : Obligations.EndOfResetBuildsTheTable := by
  refine ⟨fun s hc => ?_, toNat_get_pow2Contents, State.reset_constructed⟩
  exact ⟨s.build, step_of_not_constructed hc, toNat_get_pow2Contents, s.build_constructed,
    s.build_pending, s.build_response⟩

theorem reset_ready : State.reset.Ready := ⟨State.reset_constructed, State.reset_pow2⟩

/-- Settles O18: the reset state holds the table of R21, marked constructed. -/
theorem resetHasTheTableIntact : Obligations.ResetHasTheTableIntact :=
  ⟨fun _ => State.reset_pow2, reset_ready⟩

/-! ## Before the first request (R222) -/

theorem run_of_fixed {M : Host.Core} {s : M.State} (h : M.step s = .next s) (n : Nat) :
    M.run n s = .next s := by
  induction n with
  | zero => rfl
  | succ n ih => rw [run_succ n h, ih]

theorem readStatus_of_no_response {s : State} (h : s.response = none) :
    s.readStatus = .error .noResponse := by
  rw [State.readStatus, h]

theorem readResult_of_no_response {s : State} (h : s.response = none) :
    s.readResult = .error .noResponse := by
  rw [State.readResult, h]

/-- Settles O15: with no request the machine never leaves the reset state, which holds no response. -/
theorem noValueBeforeTheFirstResponse : Obligations.NoValueBeforeTheFirstResponse := fun n =>
  ⟨State.reset, run_of_fixed (M := Sys2Proof.core) (s := State.reset) step_reset n,
    readStatus_of_no_response State.reset_response, readResult_of_no_response State.reset_response⟩

/-! ## A request during reset (R223, R226) -/

theorem answer_ne_none (q : Request) : answer q ≠ none := by
  obtain ⟨p, hanswer, -⟩ := serveRequest_answer q
  exact Option.ne_none_iff_exists'.mpr ⟨p, hanswer⟩

/-- A request presented during reset stands, when reset ends, before a machine fresh from reset. -/
theorem step_present_during_reset (s : State) (q : Request) :
    step (s.assertReset.present q) = .next (State.reset.present q) :=
  step_of_not_constructed s.assertReset_constructed

/-- Settles O14: the first step ends reset, and the second serves the one request that waits. -/
theorem requestDuringResetWaits : Obligations.RequestDuringResetWaits := by
  intro s q
  have hpending : (State.reset.present q).pending = [q] := State.reset.present_pending q
  obtain ⟨u, hstep, hresponse, hempty, -⟩ := step_answers (s := State.reset.present q) reset_ready hpending
  exact ⟨State.reset.present q, u, step_present_during_reset s q, hpending, State.reset_response, reset_ready,
    hstep, hempty, hresponse, hresponse.trans_ne (answer_ne_none q)⟩

end Sys2Proof.Machine
end
